-- ==== Sys2Proof/Word.lean ====
section
/-! DEFINITION. The word types of the engine (00_scope.md section 4: every value is unsigned, bit 0 is the least significant bit). -/

namespace Sys2Proof

/-- One byte of a stream, of a frame or of the store. -/
abbrev Byte := BitVec 8

/-- A 32-bit quantity: a store address, a length, a millisecond count, a budget (R7). -/
abbrev Word32 := BitVec 32

/-- The integrator's accumulator and the CRC it computes (R180). -/
abbrev Acc := BitVec 16

/-- The packet buffer `S.buf[0..1028]` (R16). -/
abbrev Buf := Vector Byte 1029

end Sys2Proof
end

