-- ==== Sys2Proof/Syntax.lean ====
section
/-! DEFINITION. The engine's vocabulary (nodes, modes, results, the configuration record) and its instructions: one constructor of `Instr` per row of spec/opcode_table.json. -/

namespace Sys2Proof

/-- R17, R23: integrity mode, 8-bit additive checksum or 16-bit CRC. -/
inductive Mode where
  | sum
  | crc
  deriving DecidableEq, Repr, Inhabited

/-- R11: the values of the node register `S.node`. -/
inductive Node where
  | idle
  | rxStartWait
  | rxAwaitHeader
  | rxAwaitBody
  | txAwaitStart
  | txSendPacket
  | txAwaitAck
  deriving DecidableEq, Repr, Inhabited

/-- R83: what an operation returns to the host, by name; the numbers are `Machine.resultCode`. -/
inductive Result where
  | cont
  | success
  | errConfig
  | errIdle
  | errStartTimeout
  | errHeaderTimeout
  | errAckTimeout
  | errMismatch
  | errPeerCancel
  | errStore
  | errEarlyEot
  deriving DecidableEq, Repr, Inhabited

/-- R20 to R27: the configuration record a host supplies with `RX_INIT` or `TX_INIT`.
`pktHint` is a number because no source encodes it (R22; log 12). -/
structure SessionConfig where
  addr         : Word32
  total        : Word32
  pktHint      : Nat
  mode         : Mode
  startRetries : Word32
  pktTimeoutMs : Word32
  ackTimeoutMs : Word32
  hClock       : Bool
  hReader      : Bool
  hAvail       : Bool
  hWriter      : Bool
  hStoreRd     : Bool
  hStoreWr     : Bool
  deriving DecidableEq, Repr, Inhabited

/-- The arms `RX_STEP` dispatches to (R102, R137, R138). -/
inductive RxArm where
  | idle
  | start
  | hdrSoh
  | hdrStx
  | hdrEot
  | hdrCan
  | hdrWait
  | hdrTmoRetry
  | hdrTmoStart
  | hdrTmoStall
  | bodyWait
  | bodyTmo
  | bodyMismatch
  | bodyBadsum
  | bodyOverrun
  | bodyStorefail
  | bodyAccept
  deriving DecidableEq, Repr, Inhabited

/-- The arms `TX_STEP` dispatches to (R103, R165 to R167). -/
inductive TxArm where
  | idle
  | startC
  | startNak
  | startCan
  | startWait
  | startTmoRetry
  | startTmoFatal
  | sendDone
  | sendStorefail
  | sendFrame
  | ackLast
  | ackMore
  | ackNak
  | ackCan
  | ackWait
  | ackTmo
  deriving DecidableEq, Repr, Inhabited

/-- The 41 rows of spec/opcode_table.json: four host operations, the dispatch arms of a step, and
the integrator's micro-operations. -/
inductive Instr where
  | rxInit (cfg : SessionConfig)
  | rxStep
  | txInit (cfg : SessionConfig)
  | txStep
  | rxIdle
  | txIdle
  | rxStart
  | rxHdrSoh
  | rxHdrStx
  | rxHdrEot
  | rxHdrCan
  | rxHdrWait
  | rxHdrTmoRetry
  | rxHdrTmoStart
  | rxHdrTmoStall
  | rxBodyWait
  | rxBodyTmo
  | rxBodyMismatch
  | rxBodyBadsum
  | rxBodyOverrun
  | rxBodyStorefail
  | rxBodyAccept
  | txStartC
  | txStartNak
  | txStartCan
  | txStartWait
  | txStartTmoRetry
  | txStartTmoFatal
  | txSendDone
  | txSendStorefail
  | txSendFrame
  | txAckLast
  | txAckMore
  | txAckNak
  | txAckCan
  | txAckWait
  | txAckTmo
  | sum8Clear
  | sum8Absorb (b : Byte)
  | crc16Clear
  | crc16Absorb (b : Byte)
  deriving DecidableEq, Repr

end Sys2Proof
end

