-- ==== Sys2Proof/Config.lean ====
section
/-! DEFINITION. What an implementation fixes (the record of named parameters, R7) and the free values, which nothing fixes. -/

namespace Sys2Proof.Config

/-- R83, U17: the numeric value of each result, an implementation's numbering. -/
structure ResultCodes where
  cont             : Nat
  success          : Nat
  errConfig        : Nat
  errIdle          : Nat
  errStartTimeout  : Nat
  errHeaderTimeout : Nat
  errAckTimeout    : Nat
  errMismatch      : Nat
  errPeerCancel    : Nat
  errStore         : Nat
  errEarlyEot      : Nat
  deriving DecidableEq, Repr

/-- R7, U15 to U17, G1 to G4: the parameters of an implementation. Every state carries them, so that a
claim about a step names or quantifies over them (log 14); the spec's own values are `Machine.params`. -/
structure Params where
  /-- `SEQ_WRAP_TO`, the successor of sequence number 255 (R85). -/
  seqWrapTo : Byte
  /-- `TMO_EXPIRED` is `elapsed > T` when true, `elapsed >= T` when false (R217, D3). -/
  tmoStrict : Bool
  /-- the result numbering (R83, D4) -/
  resultCodes : ResultCodes
  crcPoly   : Acc
  crcInit   : Acc
  crcXorOut : Acc
  /-- R182: the sixteen table entries. -/
  crcTable  : Vector Acc 16
  deriving DecidableEq, Repr

/-! Free values. Each is an opaque constant applied to a counter the step advances, so no proof can
see what it is. They stand where the spec says "unspecified" (R30, R34, U5, U9; logs 2, 3, 4, 7, 8). -/

opaque freeXferred : Nat → Word32
opaque freeSeqLast : Nat → Byte
opaque freeTLast : Nat → Word32
opaque freeRxCount : Nat → BitVec 11
/-- Counter, then index in the buffer. -/
opaque freeBufByte : Nat → Nat → Byte
opaque freeMode : Nat → Mode
opaque freeStarts : Nat → Word32
opaque freeHdrSeen : Nat → Bool
opaque freeAcc : Nat → Acc
/-- The whole configuration, as reset leaves it (R34). -/
opaque freeConfig : Nat → SessionConfig
/-- Counter, then offset in the range of a failed `MemWrite` (U9). -/
opaque freeStoreByte : Nat → Nat → Byte
/-- What the store holds at an address nothing has written: the platform's business (R41; log 7). -/
opaque unwrittenByte : Word32 → Byte

end Sys2Proof.Config
end

