-- ==== Sys2Proof/WellFormed.lean ====
section
/-! DEFINITION. Which instructions are legal as they are written. -/

namespace Sys2Proof

/-- R22: the packet-size hints this spec admits. -/
def hintLegal (hint : Nat) : Bool :=
  hint == 128 || hint == 1024

/-- An instruction is well formed when its operands take only values the spec calls legal. The one
field with illegal values is the hint of a `TX_INIT`, since "Receive never reads it" (R22). -/
def Instr.wellFormed : Instr → Bool
  | .txInit cfg => hintLegal cfg.pktHint
  | _ => true

end Sys2Proof
end

