-- ==== Sys2Proof/Decode.lean ====
section
/-! DEFINITION. The dispatch map (30_encoding.md): from what the engine sees at a port to the instruction it runs, and back. A decoder that meets something with no instruction rejects it by name. -/

namespace Sys2Proof

/-! ## The one-byte codes (R70) -/

def SOH : Byte := 0x01#8
def STX : Byte := 0x02#8
def EOT : Byte := 0x04#8
def ACK : Byte := 0x06#8
def NAK : Byte := 0x15#8
def CAN : Byte := 0x18#8
def CRCREQ : Byte := 0x43#8
def PAD : Byte := 0x1A#8

/-! ## What the dispatcher sees -/

/-- The conditions the dispatch rules test (R137, R138, R165 to R167). -/
structure Signals where
  /-- the byte `RxPoll(1)` returned, if it returned one -/
  polled     : Option Byte
  /-- `TMO_EXPIRED` of the node's timeout -/
  expired    : Bool
  /-- `S.hdr_seen` -/
  hdrSeen    : Bool
  /-- `S.starts < K` on receive, `S.starts + 1 < K` on transmit -/
  budgetLeft : Bool
  /-- the frame body is complete after accumulation -/
  complete   : Bool
  /-- sequence and complement bytes are the expected ones -/
  seqOk      : Bool
  /-- `integrity_ok` (R187) -/
  sumOk      : Bool
  /-- bytes of `CFG.total` remain -/
  remaining  : Bool
  /-- the store accessor did not return 0 -/
  storeOk    : Bool
  /-- the packet being acknowledged completes `CFG.total` -/
  lastPacket : Bool
  deriving DecidableEq, Repr

/-- What stands at a port: a host call (R82), a step in a node (R79), or the integrator's input (R180). -/
inductive Key where
  | call (op : BitVec 2) (operand : SessionConfig)
  | rx (node : Node) (sig : Signals)
  | tx (node : Node) (sig : Signals)
  | integ (mode : Mode) (absorb : Option Byte)
  deriving DecidableEq, Repr

/-- Why a key has no instruction. -/
inductive Reject where
  /-- R108: a step of one direction in a node of the other. -/
  | wrongDirection
  deriving DecidableEq, Repr

/-! ## Decoding -/

/-- R82: the host operation select; all four codes are used. -/
def decodeCall (op : BitVec 2) (operand : SessionConfig) : Instr :=
  if op = 0b00#2 then .rxInit operand
  else if op = 0b01#2 then .rxStep
  else if op = 0b10#2 then .txInit operand
  else .txStep

/-- R137: node `RxAwaitHeader`. A recognised byte is acted on before any timeout is looked at. -/
def decodeHeader (g : Signals) : RxArm :=
  if g.polled = some SOH then .hdrSoh
  else if g.polled = some STX then .hdrStx
  else if g.polled = some EOT then .hdrEot
  else if g.polled = some CAN then .hdrCan
  else if !g.expired then .hdrWait
  else if g.hdrSeen then .hdrTmoStall
  else if g.budgetLeft then .hdrTmoRetry
  else .hdrTmoStart

/-- R138: node `RxAwaitBody`, in the order the checks are made. -/
def decodeBody (g : Signals) : RxArm :=
  if !g.complete then
    if !g.expired then .bodyWait else .bodyTmo
  else if !g.seqOk then .bodyMismatch
  else if !g.sumOk then .bodyBadsum
  else if !g.remaining then .bodyOverrun
  else if !g.storeOk then .bodyStorefail
  else .bodyAccept

/-- R165: node `TxAwaitStart`. -/
def decodeStart (g : Signals) : TxArm :=
  if g.polled = some CRCREQ then .startC
  else if g.polled = some NAK then .startNak
  else if g.polled = some CAN then .startCan
  else if !g.expired then .startWait
  else if g.budgetLeft then .startTmoRetry
  else .startTmoFatal

/-- R166: node `TxSendPacket`. -/
def decodeSend (g : Signals) : TxArm :=
  if !g.remaining then .sendDone
  else if !g.storeOk then .sendStorefail
  else .sendFrame

/-- R167: node `TxAwaitAck`. -/
def decodeAck (g : Signals) : TxArm :=
  if g.polled = some ACK then
    if g.lastPacket then .ackLast else .ackMore
  else if g.polled = some NAK then .ackNak
  else if g.polled = some CAN then .ackCan
  else if !g.expired then .ackWait
  else .ackTmo

/-- R102: the arms of `RX_STEP`, by node; a transmit node has none (R108). -/
def decodeRx (n : Node) (g : Signals) : Except Reject RxArm :=
  match n with
  | .idle => .ok .idle
  | .rxStartWait => .ok .start
  | .rxAwaitHeader => .ok (decodeHeader g)
  | .rxAwaitBody => .ok (decodeBody g)
  | .txAwaitStart => .error .wrongDirection
  | .txSendPacket => .error .wrongDirection
  | .txAwaitAck => .error .wrongDirection

/-- R103: the arms of `TX_STEP`, by node; a receive node has none (R108). -/
def decodeTx (n : Node) (g : Signals) : Except Reject TxArm :=
  match n with
  | .idle => .ok .idle
  | .txAwaitStart => .ok (decodeStart g)
  | .txSendPacket => .ok (decodeSend g)
  | .txAwaitAck => .ok (decodeAck g)
  | .rxStartWait => .error .wrongDirection
  | .rxAwaitHeader => .error .wrongDirection
  | .rxAwaitBody => .error .wrongDirection

/-- R180: `S.mode` selects the pair; `none` clears the accumulator, a byte is absorbed. -/
def decodeInteg (m : Mode) (absorb : Option Byte) : Instr :=
  match m, absorb with
  | .sum, none => .sum8Clear
  | .sum, some b => .sum8Absorb b
  | .crc, none => .crc16Clear
  | .crc, some b => .crc16Absorb b

/-- The instruction a receive arm is. -/
def RxArm.instr : RxArm → Instr
  | .idle => .rxIdle
  | .start => .rxStart
  | .hdrSoh => .rxHdrSoh
  | .hdrStx => .rxHdrStx
  | .hdrEot => .rxHdrEot
  | .hdrCan => .rxHdrCan
  | .hdrWait => .rxHdrWait
  | .hdrTmoRetry => .rxHdrTmoRetry
  | .hdrTmoStart => .rxHdrTmoStart
  | .hdrTmoStall => .rxHdrTmoStall
  | .bodyWait => .rxBodyWait
  | .bodyTmo => .rxBodyTmo
  | .bodyMismatch => .rxBodyMismatch
  | .bodyBadsum => .rxBodyBadsum
  | .bodyOverrun => .rxBodyOverrun
  | .bodyStorefail => .rxBodyStorefail
  | .bodyAccept => .rxBodyAccept

/-- The instruction a transmit arm is. -/
def TxArm.instr : TxArm → Instr
  | .idle => .txIdle
  | .startC => .txStartC
  | .startNak => .txStartNak
  | .startCan => .txStartCan
  | .startWait => .txStartWait
  | .startTmoRetry => .txStartTmoRetry
  | .startTmoFatal => .txStartTmoFatal
  | .sendDone => .txSendDone
  | .sendStorefail => .txSendStorefail
  | .sendFrame => .txSendFrame
  | .ackLast => .txAckLast
  | .ackMore => .txAckMore
  | .ackNak => .txAckNak
  | .ackCan => .txAckCan
  | .ackWait => .txAckWait
  | .ackTmo => .txAckTmo

/-- The instruction at a port, or why there is none. -/
def decode : Key → Except Reject Instr
  | .call op operand => .ok (decodeCall op operand)
  | .rx n g => (decodeRx n g).map RxArm.instr
  | .tx n g => (decodeTx n g).map TxArm.instr
  | .integ m b => .ok (decodeInteg m b)

/-! ## Encoding -/

/-- No byte polled, no timeout run out, every check passed. -/
def Signals.quiet : Signals where
  polled := none
  expired := false
  hdrSeen := false
  budgetLeft := false
  complete := true
  seqOk := true
  sumOk := true
  remaining := true
  storeOk := true
  lastPacket := false

/-- No operand: what stands beside the select code of a call that takes none. -/
def SessionConfig.zero : SessionConfig where
  addr := 0
  total := 0
  pktHint := 0
  mode := .sum
  startRetries := 0
  pktTimeoutMs := 0
  ackTimeoutMs := 0
  hClock := false
  hReader := false
  hAvail := false
  hWriter := false
  hStoreRd := false
  hStoreWr := false

/-- The key of an instruction, column by column from spec/opcode_table.json: the select code of a
host operation (R82), node and byte of a byte arm (R79), node and condition of the others. -/
def encode : Instr → Key
  | .rxInit cfg => .call 0b00#2 cfg
  | .rxStep => .call 0b01#2 .zero
  | .txInit cfg => .call 0b10#2 cfg
  | .txStep => .call 0b11#2 .zero
  | .rxIdle => .rx .idle .quiet
  | .txIdle => .tx .idle .quiet
  | .rxStart => .rx .rxStartWait .quiet
  | .rxHdrSoh => .rx .rxAwaitHeader { Signals.quiet with polled := some 0x01#8 }
  | .rxHdrStx => .rx .rxAwaitHeader { Signals.quiet with polled := some 0x02#8 }
  | .rxHdrEot => .rx .rxAwaitHeader { Signals.quiet with polled := some 0x04#8 }
  | .rxHdrCan => .rx .rxAwaitHeader { Signals.quiet with polled := some 0x18#8 }
  | .rxHdrWait => .rx .rxAwaitHeader .quiet
  | .rxHdrTmoRetry => .rx .rxAwaitHeader { Signals.quiet with expired := true, budgetLeft := true }
  | .rxHdrTmoStart => .rx .rxAwaitHeader { Signals.quiet with expired := true }
  | .rxHdrTmoStall => .rx .rxAwaitHeader { Signals.quiet with expired := true, hdrSeen := true }
  | .rxBodyWait => .rx .rxAwaitBody { Signals.quiet with complete := false }
  | .rxBodyTmo => .rx .rxAwaitBody { Signals.quiet with complete := false, expired := true }
  | .rxBodyMismatch => .rx .rxAwaitBody { Signals.quiet with seqOk := false }
  | .rxBodyBadsum => .rx .rxAwaitBody { Signals.quiet with sumOk := false }
  | .rxBodyOverrun => .rx .rxAwaitBody { Signals.quiet with remaining := false }
  | .rxBodyStorefail => .rx .rxAwaitBody { Signals.quiet with storeOk := false }
  | .rxBodyAccept => .rx .rxAwaitBody .quiet
  | .txStartC => .tx .txAwaitStart { Signals.quiet with polled := some 0x43#8 }
  | .txStartNak => .tx .txAwaitStart { Signals.quiet with polled := some 0x15#8 }
  | .txStartCan => .tx .txAwaitStart { Signals.quiet with polled := some 0x18#8 }
  | .txStartWait => .tx .txAwaitStart .quiet
  | .txStartTmoRetry => .tx .txAwaitStart { Signals.quiet with expired := true, budgetLeft := true }
  | .txStartTmoFatal => .tx .txAwaitStart { Signals.quiet with expired := true }
  | .txSendDone => .tx .txSendPacket { Signals.quiet with remaining := false }
  | .txSendStorefail => .tx .txSendPacket { Signals.quiet with storeOk := false }
  | .txSendFrame => .tx .txSendPacket .quiet
  | .txAckLast => .tx .txAwaitAck { Signals.quiet with polled := some 0x06#8, lastPacket := true }
  | .txAckMore => .tx .txAwaitAck { Signals.quiet with polled := some 0x06#8 }
  | .txAckNak => .tx .txAwaitAck { Signals.quiet with polled := some 0x15#8 }
  | .txAckCan => .tx .txAwaitAck { Signals.quiet with polled := some 0x18#8 }
  | .txAckWait => .tx .txAwaitAck .quiet
  | .txAckTmo => .tx .txAwaitAck { Signals.quiet with expired := true }
  | .sum8Clear => .integ .sum none
  | .sum8Absorb b => .integ .sum (some b)
  | .crc16Clear => .integ .crc none
  | .crc16Absorb b => .integ .crc (some b)

/-! ## The table's words -/

/-- A step that has polled byte `b` in a node and seen no timeout. -/
def Signals.onByte (b : Byte) : Signals :=
  { Signals.quiet with polled := some b, lastPacket := true }

/-- R79: the arm a byte has of its own in a polling node; none where the node does not recognise it,
and none in a node that does not poll for control bytes. -/
def decodeByte (n : Node) (b : Byte) : Option Instr :=
  match n with
  | .rxAwaitHeader =>
    if decodeHeader (.onByte b) = .hdrWait then none else some (decodeHeader (.onByte b)).instr
  | .txAwaitStart =>
    if decodeStart (.onByte b) = .startWait then none else some (decodeStart (.onByte b)).instr
  | .txAwaitAck =>
    if decodeAck (.onByte b) = .ackWait then none else some (decodeAck (.onByte b)).instr
  | .idle => none
  | .rxStartWait => none
  | .rxAwaitBody => none
  | .txSendPacket => none

/-- The key of a table word: a select code as a host call with no operand, any other byte in the
first node, in the table's order, that recognises it. Words the table gives several rows go to the
first of them (log 15). -/
def tableKey (nbits w : Nat) : Option Key :=
  if nbits = 0 ∨ 256 ≤ w then none
  else if w < 4 then some (.call (BitVec.ofNat 2 w) .zero)
  else if (decodeByte .rxAwaitHeader (BitVec.ofNat 8 w)).isSome then
    some (.rx .rxAwaitHeader (.onByte (BitVec.ofNat 8 w)))
  else if (decodeByte .txAwaitStart (BitVec.ofNat 8 w)).isSome then
    some (.tx .txAwaitStart (.onByte (BitVec.ofNat 8 w)))
  else if (decodeByte .txAwaitAck (BitVec.ofNat 8 w)).isSome then
    some (.tx .txAwaitAck (.onByte (BitVec.ofNat 8 w)))
  else none

/-- The instruction of a word of spec/opcode_table.json (log 15). -/
def decodeTableWord (nbits w : Nat) : Option Instr :=
  match tableKey nbits w with
  | some k =>
    match decode k with
    | .ok i => some i
    | .error _ => none
  | none => none

end Sys2Proof
end

