-- ==== Sys2Proof/Machine/Params.lean ====
section
/-! DEFINITION. The values the spec gives the implementation's parameters (R7). -/

namespace Sys2Proof.Machine

/-- R7: the values the spec gives the parameters. `SEQ_WRAP_TO = 1` (C4), `TMO_EXPIRED` is `>=` (D3), the CRC
constants are those of G1 to G4, results are numbered as R83 does (D4; logs 14, 25). -/
def params : Config.Params where
  seqWrapTo := 1#8
  tmoStrict := false
  resultCodes := {
    cont := 0
    success := 1
    errConfig := 2
    errIdle := 3
    errStartTimeout := 4
    errHeaderTimeout := 5
    errAckTimeout := 6
    errMismatch := 7
    errPeerCancel := 8
    errStore := 9
    errEarlyEot := 10 }
  crcPoly := 0x1021#16
  crcInit := 0x0000#16
  crcXorOut := 0x0000#16
  crcTable := #v[0x0000#16, 0x1021#16, 0x2042#16, 0x3063#16, 0x4084#16, 0x50A5#16, 0x60C6#16, 0x70E7#16,
    0x8108#16, 0x9129#16, 0xA14A#16, 0xB16B#16, 0xC18C#16, 0xD1AD#16, 0xE1CE#16, 0xF1EF#16]

/-- R31, R83: what the spec asks of a numbering: zero means "not yet finished" and nothing else does,
and no two results share a number. -/
def resultCodesLegal (c : Config.ResultCodes) : Bool :=
  c.cont == 0 && decide ([c.cont, c.success, c.errConfig, c.errIdle, c.errStartTimeout, c.errHeaderTimeout,
    c.errAckTimeout, c.errMismatch, c.errPeerCancel, c.errStore, c.errEarlyEot].Nodup)

end Sys2Proof.Machine
end

