-- ==== Sys2Proof/Machine/State.lean ====
section
/-! DEFINITION. What the machine holds (10_state.md, and the collaborators' side of 20_memory.md), why a step can stop, and the state after reset. Plain data throughout. -/

namespace Sys2Proof.Machine

/-- R10 to R19: the session registers `S.*`. -/
structure Session where
  node    : Node
  xferred : Word32
  seqLast : Byte
  tLast   : Word32
  rxCount : BitVec 11
  buf     : Buf
  mode    : Mode
  starts  : Word32
  hdrSeen : Bool
  deriving DecidableEq, Repr

/-- What the collaborators answer during one host call (R42 to R47), as data the call brings (log 5). -/
structure Answers where
  /-- the value `Now()` returns -/
  now     : Word32
  /-- the count `RxPoll` returns; the bytes are the next ones of the inbound stream -/
  deliver : Nat
  /-- the count `RxAvail()` returns -/
  avail   : Nat
  /-- the count the store accessor, `MemRead` or `MemWrite`, returns -/
  stored  : Nat
  deriving DecidableEq, Repr

/-- R82: a host call at the operation port, with what happened outside since the call before:
bytes that arrived, store bytes the platform wrote (log 18). -/
structure HostCall where
  op       : BitVec 2
  operand  : SessionConfig
  arrivals : List Byte
  pokes    : List (Word32 × Byte)
  ans      : Answers
  deriving DecidableEq, Repr

/-- What the outside can do to the engine between steps: call it (R82), or reset it (R230). -/
inductive Input where
  | call (c : HostCall)
  | reset
  deriving DecidableEq, Repr

/-- One collaborator call as it happened (R54), with its answer. -/
inductive Event where
  | now (t : Word32)
  | rxAvail (a : Nat)
  | rxPoll (n : Nat) (bytes : List Byte)
  | txEmit (bytes : List Byte)
  | memRead (addr : Word32) (n r : Nat)
  | memWrite (addr : Word32) (n : Nat) (bytes : List Byte) (r : Nat)
  deriving DecidableEq, Repr

/-- The store's written bytes: addresses strictly rising (log 7). -/
abbrev Memory := List Host.Cell

/-- R10, R40, R180: the engine's registers, the spaces it reaches, its result port; then the model's
own fields (`history`, `ans`, `inputs`, `free`, `par`: logs 5, 14, 16, 21). -/
structure State where
  cfg     : SessionConfig
  ses     : Session
  /-- `ACC` (R180), of no account once an operation has ended (R33; log 4) -/
  acc     : Acc
  store   : Memory
  inbound : List Byte
  /-- `RES` (R31; log 17) -/
  res     : Option Result
  /-- every collaborator call so far, oldest first; the outbound stream is read off it (log 16) -/
  history : List Event
  ans     : Answers
  inputs  : List Input
  /-- the counter the free values are applied to -/
  free    : Nat
  /-- the implementation's parameters (R7); no step changes them (log 14) -/
  par     : Config.Params
  deriving DecidableEq, Repr

/-- Why the machine stops with a fault: a read of a register that the session never wrote (U5:
"fault on read"). No run from reset reaches one (log 13). Safe: no effect is claimed. -/
inductive Fault where
  /-- Raised by `RX_STEP` and the receive arms in node `RxAwaitBody` when `S.buf[0]` is no marker, so
  that the frame has no size class (R16). Safe. -/
  | markerUnspecified
  /-- Raised by `TX_STEP` and the transmit arms in node `TxSendPacket` when `CFG.pkt_hint` is no
  payload size (R22). Safe. -/
  | hintUnspecified
  deriving DecidableEq, Repr

/-- Why there is no step: the spec says a model refuses the run. All are safe: nothing is claimed. -/
inductive Refusal where
  /-- Raised by `exec` alone, for an instruction that has no meaning yet. Safe. -/
  | notModelled (mnemonic : String)
  /-- Raised by an arm run as an instruction where the dispatch rules select another (R222: "an arm
  not listed does not exist"; log 9). Safe. -/
  | armNotSelected
  /-- Raised by `RX_STEP` in a transmit node and `TX_STEP` in a receive node (R108, U4; log 10). Safe. -/
  | wrongDirection
  /-- Raised by every polling step whose reader answers more bytes than asked or buffered (R44, U8;
  log 11). Safe. -/
  | readerContract
  /-- Raised by RX.BODY.ACCEPT and TX.SEND.FRAME, and by the steps that select them, when the store
  accessor answers neither 0 nor `n` (R42, R43, U1; log 11). Safe. -/
  | storeContract
  /-- Raised by `TX_INIT` when `CFG.pkt_hint` is neither 128 nor 1024 (R22, U3; log 12). Safe. -/
  | illegalHint
  deriving DecidableEq, Repr

/-- The three outcomes of a step of this machine. -/
abbrev Step := Host.Outcome State Fault Refusal

/-- A packet buffer of free values. -/
def freeBuf (k : Nat) : Buf :=
  ⟨((List.range' 0 1029).map (Config.freeBufByte k)).toArray, by simp⟩

/-- R30, R34: node `Idle`, and nothing known of any other session register (logs 2, 3). -/
def freeSession (k : Nat) : Session where
  node := .idle
  xferred := Config.freeXferred k
  seqLast := Config.freeSeqLast k
  tLast := Config.freeTLast k
  rxCount := Config.freeRxCount k
  buf := freeBuf k
  mode := Config.freeMode k
  starts := Config.freeStarts k
  hdrSeen := Config.freeHdrSeen k

/-- R34, R230: right after reset, with nothing outside yet (log 21). -/
def State.reset : State where
  cfg := Config.freeConfig 0
  ses := freeSession 0
  acc := Config.freeAcc 0
  store := []
  inbound := []
  res := none
  history := []
  ans := { now := 0, deliver := 0, avail := 0, stored := 0 }
  inputs := []
  free := 1
  par := params

end Sys2Proof.Machine
end

