-- ==== Sys2Proof/Machine/Operands.lean ====
section
/-! DEFINITION. The values the rules compute with: result numbers, frame geometry and fields, sequence numbers, lengths, store addresses. -/

namespace Sys2Proof.Machine

/-- R83: the numeric code of a result, in an implementation's numbering. -/
def resultCode (p : Config.Params) : Result → Nat
  | .cont => p.resultCodes.cont
  | .success => p.resultCodes.success
  | .errConfig => p.resultCodes.errConfig
  | .errIdle => p.resultCodes.errIdle
  | .errStartTimeout => p.resultCodes.errStartTimeout
  | .errHeaderTimeout => p.resultCodes.errHeaderTimeout
  | .errAckTimeout => p.resultCodes.errAckTimeout
  | .errMismatch => p.resultCodes.errMismatch
  | .errPeerCancel => p.resultCodes.errPeerCancel
  | .errStore => p.resultCodes.errStore
  | .errEarlyEot => p.resultCodes.errEarlyEot

/-- R31: the number the host gets back from the last operation. -/
def State.resCode (s : State) : Option Nat :=
  s.res.map (resultCode s.par)

/-! ## Frame geometry (R71 to R73) -/

/-- R73: payload size of a marker. -/
def psize (marker : Byte) : Option Nat :=
  if marker = SOH then some 128
  else if marker = STX then some 1024
  else none

/-- R73: marker of a payload size. -/
def markerOf (size : Nat) : Option Byte :=
  if size = 128 then some SOH
  else if size = 1024 then some STX
  else none

/-- R17: length of the integrity field. -/
def ilen : Mode → Nat
  | .sum => 1
  | .crc => 2

/-- R72: bytes of a frame after its marker. -/
def blen (size : Nat) (m : Mode) : Nat :=
  2 + size + ilen m

/-- R72: bytes of a whole frame. -/
def flen (size : Nat) (m : Mode) : Nat :=
  3 + size + ilen m

/-! ## Sequence numbers (R74, R75, R85) -/

/-- R85: the successor of a sequence number. -/
def nextSeq (p : Config.Params) (s : Byte) : Byte :=
  if s = 0xFF#8 then p.seqWrapTo else s + 1#8

/-- R75: `0xFF - s`. -/
def complement (s : Byte) : Byte :=
  0xFF#8 - s

/-! ## The packet buffer (R16) -/

/-- Bytes `at` to `at + n - 1` of the buffer. -/
def slice (b : Buf) (start n : Nat) : List Byte :=
  (b.toList.drop start).take n

/-- The buffer with `bytes` written from index `start` on; what would lie past its end is dropped. Every
other byte keeps its value. R16 leaves the bytes beyond the current frame's length unspecified; that
they keep what earlier frames left there is the model's choice (DESIGN CHOICE, unsafe; log 28). -/
def fill (b : Buf) (start : Nat) (bytes : List Byte) : Buf :=
  ⟨((b.toList.take start ++ bytes ++ b.toList.drop (start + bytes.length)).take 1029).toArray,
    by simp; omega⟩

/-- R76: `pad(D, P)`. -/
def padTo (size : Nat) (d : List Byte) : List Byte :=
  d ++ List.replicate (size - d.length) PAD

/-! ## Lengths and addresses of a session (R12, R60, R61, R191) -/

/-- `CFG.total - S.xferred` (log 20). -/
def State.remaining (s : State) : Nat :=
  s.cfg.total.toNat - s.ses.xferred.toNat

/-- `min(P, CFG.total - S.xferred)`, the bytes of the packet at hand. -/
def State.chunk (s : State) (size : Nat) : Nat :=
  min size s.remaining

/-- R12, R60: `CFG.addr +_32 S.xferred`, where the next store access starts. -/
def State.storeAddr (s : State) : Word32 :=
  s.cfg.addr + s.ses.xferred

/-- R16, R73: payload size of the frame in the buffer, from its marker. -/
def State.frameSize? (s : State) : Option Nat :=
  psize s.ses.buf[0]

/-- The same where the marker has been checked: a frame without one has stopped the step (log 13). -/
def State.frameSize (s : State) : Nat :=
  s.frameSize?.getD 0

/-- R72: how many bytes follow the marker in the frame at hand. -/
def State.bodyLength (s : State) : Nat :=
  blen s.frameSize s.ses.mode

/-- R129: bytes the frame still needs. -/
def State.need (s : State) : Nat :=
  s.bodyLength - s.ses.rxCount.toNat

/-- R129: bytes to ask the reader for. -/
def State.request (s : State) : Nat :=
  if s.cfg.hAvail then min s.ans.avail s.need else s.need

/-- R71: the payload of the frame in the buffer. -/
def State.payload (s : State) : List Byte :=
  slice s.ses.buf 3 s.frameSize

/-- R71: the integrity field of the frame in the buffer. -/
def State.integrityField (s : State) : List Byte :=
  slice s.ses.buf (3 + s.frameSize) (ilen s.ses.mode)

/-- The bytes `RxPoll` hands over in this step (R44). -/
def State.polledBytes (s : State) : List Byte :=
  s.inbound.take s.ans.deliver

/-- The outbound stream: everything emitted so far, in order (R46; log 16). -/
def State.outbound (s : State) : List Byte :=
  s.history.flatMap fun e => match e with
    | .txEmit bytes => bytes
    | .now _ => []
    | .rxAvail _ => []
    | .rxPoll _ _ => []
    | .memRead _ _ _ => []
    | .memWrite _ _ _ _ => []

/-- R120: the solicitation byte of an integrity mode. -/
def solicitation : Mode → Byte
  | .crc => CRCREQ
  | .sum => NAK

end Sys2Proof.Machine
end

