-- ==== Sys2Proof/Machine/Integrity.lean ====
section
/-! DEFINITION. The integrity module (43_integrity.md): the integrator's micro-operations on the accumulator, the two integrity functions over a payload, and the integrity field. -/

namespace Sys2Proof.Machine

/-! ## Micro-operations on `ACC` -/

/-- R181: `ACC[7:0] <- 0`; the upper byte is not used in this mode and stays. -/
def sum8ClearAcc (a : Acc) : Acc :=
  a.extractLsb' 8 8 ++ 0x00#8

/-- R181: `ACC[7:0] <- ACC[7:0] +_8 b`. -/
def sum8AbsorbAcc (a : Acc) (b : Byte) : Acc :=
  a.extractLsb' 8 8 ++ (a.extractLsb' 0 8 + b)

/-- R183: one nibble step. -/
def crcNibble (p : Config.Params) (a : Acc) (nibble : BitVec 4) : Acc :=
  (a <<< 4) ^^^ p.crcTable[(a.extractLsb' 12 4 ^^^ nibble).toNat]

/-- R183: `CRC16.ABSORB`, high nibble first. -/
def crc16AbsorbAcc (p : Config.Params) (a : Acc) (b : Byte) : Acc :=
  crcNibble p (crcNibble p a (b.extractLsb' 4 4)) (b.extractLsb' 0 4)

/-! ## The integrity functions -/

/-- R181: sum of the bytes modulo 256, absorbed from clear. -/
def sum8 (d : List Byte) : Byte :=
  (d.foldl sum8AbsorbAcc (sum8ClearAcc 0#16)).extractLsb' 0 8

/-- R184: clear, absorb in order, final exclusive-or (none for this CRC). -/
def crc16 (p : Config.Params) (d : List Byte) : Acc :=
  d.foldl (crc16AbsorbAcc p) p.crcInit ^^^ p.crcXorOut

/-- R188: one bit of the bit-serial form. -/
def crcBit (p : Config.Params) (a : Acc) : Acc :=
  if a.getLsbD 15 then (a <<< 1) ^^^ p.crcPoly else a <<< 1

/-- R188: one byte of the bit-serial form, an independent second definition. -/
def crcSerialByte (p : Config.Params) (a : Acc) (b : Byte) : Acc :=
  (List.range 8).foldl (fun a _ => crcBit p a) (a ^^^ (b.setWidth 16 <<< 8))

/-- R188: the bit-serial CRC. -/
def crcSerial (p : Config.Params) (d : List Byte) : Acc :=
  d.foldl (crcSerialByte p) p.crcInit ^^^ p.crcXorOut

/-! ## The integrity field (R77, R185 to R187) -/

/-- R186: what the integrity field of a payload holds, high byte of a CRC first. -/
def integrityBytes (p : Config.Params) (m : Mode) (payload : List Byte) : List Byte :=
  match m with
  | .sum => [sum8 payload]
  | .crc => [(crc16 p payload).extractLsb' 8 8, (crc16 p payload).extractLsb' 0 8]

/-- R71, R158: the frame of a payload. -/
def buildFrame (p : Config.Params) (marker seq : Byte) (m : Mode) (payload : List Byte) : List Byte :=
  [marker, seq, complement seq] ++ payload ++ integrityBytes p m payload

/-- R187: `integrity_ok` of the frame in the buffer. -/
def State.integrityOk (s : State) : Bool :=
  s.integrityField == integrityBytes s.par s.ses.mode s.payload

end Sys2Proof.Machine
end

