-- ==== Sys2Proof/Machine/Flags.lean ====
section
/-! DEFINITION. Every condition a dispatch rule tests, computed from the state (R137, R138, R165 to R167, R217), gathered into the signals the decoder reads. -/

namespace Sys2Proof.Machine

/-- R217: `now -_32 S.t_last`. -/
def State.elapsed (s : State) (now : Word32) : Word32 :=
  now - s.ses.tLast

/-- R217: `TMO_EXPIRED(e, T)`, on unsigned values. -/
def tmoExpired (p : Config.Params) (e t : Word32) : Bool :=
  if p.tmoStrict then decide (t.toNat < e.toNat) else decide (t.toNat ≤ e.toNat)

/-- The timeout of `ack_timeout_ms` (R26) has run out. -/
def State.ackExpired (s : State) : Bool :=
  tmoExpired s.par (s.elapsed s.ans.now) s.cfg.ackTimeoutMs

/-- The timeout of `pkt_timeout_ms` (R25) has run out. -/
def State.pktExpired (s : State) : Bool :=
  tmoExpired s.par (s.elapsed s.ans.now) s.cfg.pktTimeoutMs

/-- R137: `S.starts < CFG.start_retries`. -/
def State.solicitationsLeft (s : State) : Bool :=
  decide (s.ses.starts.toNat < s.cfg.startRetries.toNat)

/-- R165: `S.starts + 1 < CFG.start_retries`, in unbounded integers (R191). -/
def State.intervalsLeft (s : State) : Bool :=
  decide (s.ses.starts.toNat + 1 < s.cfg.startRetries.toNat)

/-- R44: the reader's answer to `RxPoll(n)` is one its contract allows. -/
def State.readerOk (s : State) (n : Nat) : Bool :=
  decide (s.ans.deliver ≤ n ∧ s.ans.deliver ≤ s.inbound.length)

/-- R129, R44: the reader's answer in a body step; no poll is made when nothing is asked for. -/
def State.bodyReaderOk (s : State) : Bool :=
  decide (s.request = 0) || s.readerOk s.request

/-- R138: the frame in the buffer is complete. -/
def State.frameComplete (s : State) : Bool :=
  decide (s.bodyLength ≤ s.ses.rxCount.toNat)

/-- R132: the sequence byte is the expected one and the complement byte matches it. -/
def State.seqOk (s : State) : Bool :=
  decide (s.ses.buf[1] = nextSeq s.par s.ses.seqLast ∧ s.ses.buf[2] = complement s.ses.buf[1])

/-- R167: the packet being acknowledged completes `CFG.total`. -/
def State.lastPacket (s : State) : Bool :=
  decide (s.ses.xferred.toNat + s.chunk s.cfg.pktHint = s.cfg.total.toNat)

/-- R137: what a header step has seen once it has polled. -/
def State.headerSignals (s : State) : Signals :=
  { Signals.quiet with
    polled := s.polledBytes.head?
    expired := s.ackExpired
    hdrSeen := s.ses.hdrSeen
    budgetLeft := s.solicitationsLeft }

/-- R138: what a body step has seen, `s` being the state after accumulation. -/
def State.bodySignals (s : State) : Signals :=
  { Signals.quiet with
    expired := s.pktExpired
    complete := s.frameComplete
    seqOk := s.seqOk
    sumOk := s.integrityOk
    remaining := decide (0 < s.remaining)
    storeOk := decide (s.ans.stored ≠ 0) }

/-- R165: what a start step has seen once it has polled. -/
def State.startSignals (s : State) : Signals :=
  { Signals.quiet with
    polled := s.polledBytes.head?
    expired := s.ackExpired
    budgetLeft := s.intervalsLeft }

/-- R166: what a send step tests. -/
def State.sendSignals (s : State) : Signals :=
  { Signals.quiet with
    remaining := decide (0 < s.chunk s.cfg.pktHint)
    storeOk := decide (s.ans.stored ≠ 0) }

/-- R167: what an ack step has seen once it has polled. -/
def State.ackSignals (s : State) : Signals :=
  { Signals.quiet with
    polled := s.polledBytes.head?
    expired := s.ackExpired
    lastPacket := s.lastPacket }

end Sys2Proof.Machine
end

