-- ==== Sys2Proof/Machine/Memory.lean ====
section
/-! DEFINITION. The store as a list of written bytes in one canonical form (R41, R49), and the two accesses the accessors make. -/

namespace Sys2Proof.Machine

/-- Addresses strictly rising and inside the 2^32 the store has (R41). An unlisted address holds no
written byte, so no entry can equal what an unlisted address reads as (log 7). -/
def Memory.wf (m : Memory) : Bool :=
  decide (List.Pairwise (fun c d : Host.Cell => c.1 < d.1) m) && m.all (fun c => c.1 < 2 ^ 32)

/-- The byte written at an address, if one was. -/
def Memory.read? : Memory → Nat → Option Byte
  | [], _ => none
  | c :: m, a => if c.1 = a then some c.2 else Memory.read? m a

/-- Write one byte, keeping the canonical form. -/
def Memory.write : Memory → Nat → Byte → Memory
  | [], a, b => [(a, b)]
  | c :: m, a, b =>
    if a < c.1 then (a, b) :: c :: m
    else if a = c.1 then (a, b) :: m
    else c :: Memory.write m a b

/-- R49: byte `i` goes to address `addr + i` modulo 2^32. -/
def Memory.writeBytes : Memory → Word32 → List Byte → Memory
  | m, _, [] => m
  | m, addr, b :: bs => Memory.writeBytes (m.write addr.toNat b) (addr + 1#32) bs

/-- What the store holds at an address: the byte last written, or whatever the platform has there (log 7). -/
def Memory.byteAt (m : Memory) (addr : Word32) : Byte :=
  (m.read? addr.toNat).getD (Config.unwrittenByte addr)

/-- R49: the `n` bytes from `addr` on, addresses modulo 2^32. -/
def Memory.readBytes (m : Memory) (addr : Word32) (n : Nat) : List Byte :=
  (List.range n).map fun i => m.byteAt (addr + BitVec.ofNat 32 i)

/-- The platform's own writes, in order (log 18). -/
def Memory.poke (m : Memory) (ps : List (Word32 × Byte)) : Memory :=
  ps.foldl (fun m p => m.write p.1.toNat p.2) m

end Sys2Proof.Machine
end

