-- ==== Sys2Proof/Machine/Ops.lean ====
section
/-! DEFINITION. The operations the meanings are made of: one per collaborator primitive (00_scope.md section 4), the ends of an operation (R106, R107), the shared register moves, accumulation, the selection of an arm, and taking an input. -/

namespace Sys2Proof.Machine

/-! ## Collaborator primitives: each is one entry of `history` -/

/-- R47: `Now()`; the value is `s.ans.now`. -/
def State.readClock (s : State) : State :=
  { s with history := s.history ++ [.now s.ans.now] }

/-- R45: `RxAvail()`; consumes nothing. -/
def State.queryAvail (s : State) : State :=
  { s with history := s.history ++ [.rxAvail s.ans.avail] }

/-- R44: `RxPoll(n)`; the bytes handed over leave the inbound stream. -/
def State.poll (s : State) (n : Nat) : State :=
  { s with
    inbound := s.inbound.drop s.ans.deliver
    history := s.history ++ [.rxPoll n s.polledBytes] }

/-- R46: `TxEmit(bytes)`; total. -/
def State.emit (s : State) (bytes : List Byte) : State :=
  { s with history := s.history ++ [.txEmit bytes] }

/-- R43: `MemRead(addr, n)` at the running offset, answered by `s.ans.stored`. -/
def State.readStore (s : State) (n : Nat) : State :=
  { s with history := s.history ++ [.memRead s.storeAddr n s.ans.stored] }

/-- R42: a `MemWrite` at the running offset that returned the length of `bytes`. -/
def State.writeStore (s : State) (bytes : List Byte) : State :=
  { s with
    store := s.store.writeBytes s.storeAddr bytes
    history := s.history ++ [.memWrite s.storeAddr bytes.length bytes bytes.length] }

/-- R42, U9: a `MemWrite` at the running offset that returned 0: those store bytes now hold any
value (log 8). -/
def State.failStore (s : State) (bytes : List Byte) : State :=
  { s with
    store := s.store.writeBytes s.storeAddr ((List.range bytes.length).map (Config.freeStoreByte s.free))
    history := s.history ++ [.memWrite s.storeAddr bytes.length bytes 0]
    free := s.free + 1 }

/-! ## Register moves -/

/-- R14: `S.t_last <- t`. -/
def State.setTLast (s : State) (t : Word32) : State :=
  { s with ses := { s.ses with tLast := t } }

/-- R14: `S.t_last <- Now()`. -/
def State.stamp (s : State) : State :=
  s.readClock.setTLast s.ans.now

/-- `S.node <- n`, this block's `pc <- target`. -/
def State.goto (s : State) (n : Node) : State :=
  { s with ses := { s.ses with node := n } }

/-- R18: `S.starts <- S.starts + 1`. -/
def State.countStart (s : State) : State :=
  { s with ses := { s.ses with starts := s.ses.starts + 1#32 } }

/-- R150, R151: `S.mode <- m`. -/
def State.setMode (s : State) (m : Mode) : State :=
  { s with ses := { s.ses with mode := m } }

/-- R121, R122: the marker opens a frame: stored at offset 0, counter reset, header latch set. -/
def State.openFrame (s : State) (marker : Byte) : State :=
  { s with ses := { s.ses with buf := fill s.ses.buf 0 [marker], rxCount := 0#11, hdrSeen := true } }

/-- R136, R159, R160: the running offset and the sequence number move on. -/
def State.advance (s : State) (n : Nat) (seq : Byte) : State :=
  { s with ses := { s.ses with xferred := s.ses.xferred + BitVec.ofNat 32 n, seqLast := seq } }

/-- R158: the frame stands in the packet buffer. -/
def State.loadFrame (s : State) (frame : List Byte) : State :=
  { s with ses := { s.ses with buf := fill s.ses.buf 0 frame } }

/-- R33, R180: the accumulator lives inside one operation; when the operation ends, nothing of it is
left (log 4). -/
def State.retireAcc (s : State) : State :=
  { s with acc := Config.freeAcc s.free, free := s.free + 1 }

/-- A micro-operation of the integrator. -/
def State.setAcc (s : State) (a : Acc) : State :=
  { s with acc := a }

/-! ## Ends of an operation -/

/-- R31: the operation ends and returns `r`. -/
def State.answer (s : State) (r : Result) : State :=
  { s.retireAcc with res := some r }

/-- R106, R213: `raise Terminal(code)`, the one way an arm ends a session. `S.node <- Idle`, the code
goes to the host, every other session register becomes unspecified (R30; log 3). -/
def State.terminal (s : State) (code : Result) : State :=
  { s.retireAcc with ses := freeSession s.free, res := some code }

/-! ## Accumulation (R129) -/

/-- The polled bytes go to the next frame offsets and are counted. -/
def State.takeBody (s : State) (bytes : List Byte) : State :=
  { s with ses := { s.ses with
      buf := fill s.ses.buf (1 + s.ses.rxCount.toNat) bytes
      rxCount := s.ses.rxCount + BitVec.ofNat 11 bytes.length } }

/-- R129: `RxAvail` where it is bound, then one `RxPoll` unless there is nothing to ask for. -/
def State.accumulate (s : State) : State :=
  let s₁ := if s.cfg.hAvail then s.queryAvail else s
  if s.request = 0 then s₁ else (s₁.poll s.request).takeBody s.polledBytes

/-! ## Selection of an arm (R102, R103) -/

/-- R102, R137, R138: the arm `RX_STEP` runs, or why there is none. -/
def State.selectRx (s : State) : Host.Outcome RxArm Fault Refusal :=
  match s.ses.node with
  | .idle => .next .idle
  | .rxStartWait => .next .start
  | .rxAwaitHeader =>
    if s.readerOk 1 then .next (decodeHeader s.headerSignals) else .refused .readerContract
  | .rxAwaitBody =>
    if s.frameSize?.isNone then .fault .markerUnspecified
    else if s.bodyReaderOk then .next (decodeBody s.accumulate.bodySignals)
    else .refused .readerContract
  | .txAwaitStart => .refused .wrongDirection
  | .txSendPacket => .refused .wrongDirection
  | .txAwaitAck => .refused .wrongDirection

/-- R103, R165 to R167: the arm `TX_STEP` runs, or why there is none. -/
def State.selectTx (s : State) : Host.Outcome TxArm Fault Refusal :=
  match s.ses.node with
  | .idle => .next .idle
  | .txAwaitStart =>
    if s.readerOk 1 then .next (decodeStart s.startSignals) else .refused .readerContract
  | .txSendPacket =>
    if hintLegal s.cfg.pktHint then .next (decodeSend s.sendSignals) else .fault .hintUnspecified
  | .txAwaitAck =>
    if s.readerOk 1 then .next (decodeAck s.ackSignals) else .refused .readerContract
  | .rxStartWait => .refused .wrongDirection
  | .rxAwaitHeader => .refused .wrongDirection
  | .rxAwaitBody => .refused .wrongDirection

/-- Run a receive arm's body where the dispatch rules select that arm (log 9). -/
def State.runRx (s : State) (a : RxArm) (body : State → Step) : Step :=
  match s.selectRx with
  | .next b => if b = a then body s else .refused .armNotSelected
  | .fault f => .fault f
  | .refused r => .refused r

/-- Run a transmit arm's body where the dispatch rules select that arm (log 9). -/
def State.runTx (s : State) (a : TxArm) (body : State → Step) : Step :=
  match s.selectTx with
  | .next b => if b = a then body s else .refused .armNotSelected
  | .fault f => .fault f
  | .refused r => .refused r

/-! ## Inputs -/

/-- A host call is presented: what arrived and what the platform wrote is there, and the
collaborators' answers to this call are known (logs 5, 18). -/
def State.accept (s : State) (c : HostCall) : State :=
  { s with
    ans := c.ans
    inbound := s.inbound ++ c.arrivals
    store := s.store.poke c.pokes }

/-- R230: the engine is reset: node `Idle`, every other register unspecified, streams and store
untouched (log 19). -/
def State.resetEngine (s : State) : State :=
  { s with
    cfg := Config.freeConfig s.free
    ses := freeSession s.free
    acc := Config.freeAcc s.free
    free := s.free + 1 }

/-- The answers of collaborators that are asked for nothing. -/
def Answers.none : Answers where
  now := 0
  deliver := 0
  avail := 0
  stored := 0

/-- A call of one select code with nothing else in it. -/
def HostCall.bare (op : BitVec 2) (operand : SessionConfig) : HostCall where
  op := op
  operand := operand
  arrivals := []
  pokes := []
  ans := Answers.none

/-- A step call whose reader hands over the one byte it is asked for. -/
def HostCall.polling (op : BitVec 2) : HostCall :=
  { HostCall.bare op .zero with ans := { Answers.none with deliver := 1 } }

/-- A node to dispatch in, with the byte it will poll in front of the inbound stream. -/
def State.standIn (s : State) (n : Node) (polled : Option Byte) : State :=
  { s with ses := { s.ses with node := n }, inbound := polled.toList ++ s.inbound }

/-- Put a key where the next step takes its instruction: a host call in front of the inputs; for a
byte arm also its node, the byte in front of the inbound stream and a reader that hands it over; for
a reply to a frame a session of one short packet, which the reply completes (log 15). -/
def State.placeKey (s : State) (k : Key) : State :=
  match k with
  | .call op operand => { s with inputs := .call (.bare op operand) :: s.inputs }
  | .rx n g => { s.standIn n g.polled with inputs := .call (.polling 0b01#2) :: s.inputs }
  | .tx n g =>
    if n = .txAwaitAck then
      { s.standIn n g.polled with
        cfg := { s.cfg with total := 128#32, pktHint := 128 }
        ses := { s.ses with node := n, xferred := 0#32 }
        inputs := .call (.polling 0b11#2) :: s.inputs }
    else { s.standIn n g.polled with inputs := .call (.polling 0b11#2) :: s.inputs }
  | .integ _ _ => s

end Sys2Proof.Machine
end

