-- ==== Sys2Proof/Machine/Receive.lean ====
section
/-! DEFINITION. The receive arms (40_host_ops.md R104, 41_receive.md R120 to R136), each the whole step that runs where the arm is selected. -/

namespace Sys2Proof.Machine

/-- `RX.IDLE` (R104). -/
def execRxIdle (s : State) : Step :=
  s.runRx .idle fun s => .next (s.answer .errIdle)

/-! ## Node `RxStartWait` -/

/-- `RX.START` (R120). -/
def execRxStart (s : State) : Step :=
  s.runRx .start fun s =>
    .next ((((s.emit [solicitation s.ses.mode]).countStart.stamp).goto .rxAwaitHeader).answer .cont)

/-! ## Node `RxAwaitHeader` -/

/-- `RX.HDR.SOH` (R121). -/
def execRxHdrSoh (s : State) : Step :=
  s.runRx .hdrSoh fun s =>
    .next (((((s.poll 1).openFrame SOH).stamp).goto .rxAwaitBody).answer .cont)

/-- `RX.HDR.STX` (R122). -/
def execRxHdrStx (s : State) : Step :=
  s.runRx .hdrStx fun s =>
    .next (((((s.poll 1).openFrame STX).stamp).goto .rxAwaitBody).answer .cont)

/-- `RX.HDR.EOT` (R123): acknowledged whether or not the total has been reached (D27). -/
def execRxHdrEot (s : State) : Step :=
  s.runRx .hdrEot fun s =>
    .next (((s.poll 1).emit [ACK]).terminal
      (if s.ses.xferred = s.cfg.total then .success else .errEarlyEot))

/-- `RX.HDR.CAN` (R124). -/
def execRxHdrCan (s : State) : Step :=
  s.runRx .hdrCan fun s => .next ((s.poll 1).terminal .errPeerCancel)

/-- `RX.HDR.WAIT` (R125). -/
def execRxHdrWait (s : State) : Step :=
  s.runRx .hdrWait fun s => .next (((s.poll 1).readClock).answer .cont)

/-- `RX.HDR.TMO_RETRY` (R126): `S.t_last` is not written. -/
def execRxHdrTmoRetry (s : State) : Step :=
  s.runRx .hdrTmoRetry fun s =>
    .next ((((s.poll 1).readClock).goto .rxStartWait).answer .cont)

/-- `RX.HDR.TMO_START` (R127). -/
def execRxHdrTmoStart (s : State) : Step :=
  s.runRx .hdrTmoStart fun s => .next (((s.poll 1).readClock).terminal .errStartTimeout)

/-- `RX.HDR.TMO_STALL` (R128). -/
def execRxHdrTmoStall (s : State) : Step :=
  s.runRx .hdrTmoStall fun s => .next (((s.poll 1).readClock).terminal .errHeaderTimeout)

/-! ## Node `RxAwaitBody`: every arm begins with accumulation (R129) -/

/-- `RX.BODY.WAIT` (R130). -/
def execRxBodyWait (s : State) : Step :=
  s.runRx .bodyWait fun s => .next (s.accumulate.readClock.answer .cont)

/-- `RX.BODY.TMO` (R131): the clock is read before the `NAK` goes out, and that value is the stamp. -/
def execRxBodyTmo (s : State) : Step :=
  s.runRx .bodyTmo fun s =>
    .next (((((s.accumulate.readClock).emit [NAK]).setTLast s.ans.now).goto .rxAwaitHeader).answer .cont)

/-- `RX.BODY.MISMATCH` (R132): no integrity computation, no store access. -/
def execRxBodyMismatch (s : State) : Step :=
  s.runRx .bodyMismatch fun s => .next ((s.accumulate.emit [CAN]).terminal .errMismatch)

/-- `RX.BODY.BADSUM` (R133). -/
def execRxBodyBadsum (s : State) : Step :=
  s.runRx .bodyBadsum fun s =>
    .next ((((s.accumulate.emit [NAK]).stamp).goto .rxAwaitHeader).answer .cont)

/-- `RX.BODY.OVERRUN` (R134): success, and the peer is told to stop. -/
def execRxBodyOverrun (s : State) : Step :=
  s.runRx .bodyOverrun fun s => .next ((s.accumulate.emit [CAN]).terminal .success)

/-- R136: the payload bytes a packet delivers, `S.buf[3..3+n-1]`. -/
def State.delivered (s : State) : List Byte :=
  slice s.ses.buf 3 (s.chunk s.frameSize)

/-- `RX.BODY.STOREFAIL` (R135). -/
def execRxBodyStorefail (s : State) : Step :=
  s.runRx .bodyStorefail fun s =>
    .next (((s.accumulate.failStore s.accumulate.delivered).emit [CAN]).terminal .errStore)

/-- R136: what follows once the write has returned `n`. -/
def State.acceptPacket (s : State) : State :=
  (((((s.writeStore s.delivered).advance (s.chunk s.frameSize) s.ses.buf[1]).emit [ACK]).stamp).goto
    .rxAwaitHeader).answer .cont

/-- `RX.BODY.ACCEPT` (R136): the write precedes the `ACK`; the accessor's answer must be `n` (R42). -/
def execRxBodyAccept (s : State) : Step :=
  s.runRx .bodyAccept fun s =>
    if s.ans.stored = s.accumulate.chunk s.accumulate.frameSize then .next s.accumulate.acceptPacket
    else .refused .storeContract

end Sys2Proof.Machine
end

