-- ==== Sys2Proof/Machine/Transmit.lean ====
section
/-! DEFINITION. The transmit arms (40_host_ops.md R105, 42_transmit.md R150 to R164), each the whole step that runs where the arm is selected. -/

namespace Sys2Proof.Machine

/-- `TX.IDLE` (R105). -/
def execTxIdle (s : State) : Step :=
  s.runTx .idle fun s => .next (s.answer .errIdle)

/-! ## Node `TxAwaitStart` -/

/-- `TX.START.C` (R150). -/
def execTxStartC (s : State) : Step :=
  s.runTx .startC fun s =>
    .next (((((s.poll 1).setMode .crc).stamp).goto .txSendPacket).answer .cont)

/-- `TX.START.NAK` (R151). -/
def execTxStartNak (s : State) : Step :=
  s.runTx .startNak fun s =>
    .next (((((s.poll 1).setMode .sum).stamp).goto .txSendPacket).answer .cont)

/-- `TX.START.CAN` (R152). -/
def execTxStartCan (s : State) : Step :=
  s.runTx .startCan fun s => .next ((s.poll 1).terminal .errPeerCancel)

/-- `TX.START.WAIT` (R153). -/
def execTxStartWait (s : State) : Step :=
  s.runTx .startWait fun s => .next (((s.poll 1).readClock).answer .cont)

/-- `TX.START.TMO_RETRY` (R154): the interval restarts, the node stays. -/
def execTxStartTmoRetry (s : State) : Step :=
  s.runTx .startTmoRetry fun s => .next ((((s.poll 1).stamp).countStart).answer .cont)

/-- `TX.START.TMO_FATAL` (R155). -/
def execTxStartTmoFatal (s : State) : Step :=
  s.runTx .startTmoFatal fun s =>
    .next ((((s.poll 1).readClock).countStart).terminal .errStartTimeout)

/-! ## Node `TxSendPacket` -/

/-- `TX.SEND.DONE` (R156): no store access. -/
def execTxSendDone (s : State) : Step :=
  s.runTx .sendDone fun s => .next ((s.emit [EOT]).terminal .success)

/-- `TX.SEND.STOREFAIL` (R157). -/
def execTxSendStorefail (s : State) : Step :=
  s.runTx .sendStorefail fun s =>
    .next (((s.readStore (s.chunk s.cfg.pktHint)).emit [CAN]).terminal .errStore)

/-- R158: the padded payload of the packet at hand. -/
def State.outPayload (s : State) : List Byte :=
  padTo s.cfg.pktHint (s.store.readBytes s.storeAddr (s.chunk s.cfg.pktHint))

/-- R158: the frame of the packet at hand. -/
def State.outFrame (s : State) (marker : Byte) : List Byte :=
  buildFrame s.par marker (nextSeq s.par s.ses.seqLast) s.ses.mode s.outPayload

/-- R158: what follows once the read has returned `n` bytes. -/
def State.sendFrame (s : State) (marker : Byte) : State :=
  (((((s.readStore (s.chunk s.cfg.pktHint)).loadFrame (s.outFrame marker)).emit
    (s.outFrame marker)).stamp).goto .txAwaitAck).answer .cont

/-- `TX.SEND.FRAME` (R158): first sendings and resends alike; the accessor's answer must be `n` (R43). -/
def execTxSendFrame (s : State) : Step :=
  s.runTx .sendFrame fun s =>
    match markerOf s.cfg.pktHint with
    | some marker =>
      if s.ans.stored = s.chunk s.cfg.pktHint then .next (s.sendFrame marker)
      else .refused .storeContract
    | none => .fault .hintUnspecified

/-! ## Node `TxAwaitAck` -/

/-- `TX.ACK.ACK_LAST` (R159): the two register writes are not observable after the step (R30). -/
def execTxAckLast (s : State) : Step :=
  s.runTx .ackLast fun s =>
    .next ((((s.poll 1).advance (s.chunk s.cfg.pktHint) (nextSeq s.par s.ses.seqLast)).emit
      [EOT]).terminal .success)

/-- `TX.ACK.ACK_MORE` (R160). -/
def execTxAckMore (s : State) : Step :=
  s.runTx .ackMore fun s =>
    .next (((((s.poll 1).advance s.cfg.pktHint (nextSeq s.par s.ses.seqLast)).stamp).goto
      .txSendPacket).answer .cont)

/-- `TX.ACK.NAK` (R161). -/
def execTxAckNak (s : State) : Step :=
  s.runTx .ackNak fun s => .next ((((s.poll 1).stamp).goto .txSendPacket).answer .cont)

/-- `TX.ACK.CAN` (R162). -/
def execTxAckCan (s : State) : Step :=
  s.runTx .ackCan fun s => .next ((s.poll 1).terminal .errPeerCancel)

/-- `TX.ACK.WAIT` (R163). -/
def execTxAckWait (s : State) : Step :=
  s.runTx .ackWait fun s => .next (((s.poll 1).readClock).answer .cont)

/-- `TX.ACK.TMO` (R164). -/
def execTxAckTmo (s : State) : Step :=
  s.runTx .ackTmo fun s => .next (((s.poll 1).readClock).terminal .errAckTimeout)

end Sys2Proof.Machine
end

