-- ==== Sys2Proof/Machine/HostOps.lean ====
section
/-! DEFINITION. The four host operations (40_host_ops.md R100 to R103). -/

namespace Sys2Proof.Machine

/-- R100: the capabilities a receive session cannot start without. -/
def rxHandlesBound (c : SessionConfig) : Bool :=
  c.hClock && c.hWriter && c.hReader && c.hStoreWr

/-- R101: the capabilities a transmit session cannot start without. -/
def txHandlesBound (c : SessionConfig) : Bool :=
  c.hClock && c.hWriter && c.hReader && c.hStoreRd

/-- R100: the registers a receive session starts with. -/
def State.openRx (s : State) (c : SessionConfig) : State :=
  { s with
    cfg := c
    ses := { s.ses with
      xferred := 0#32, seqLast := 0#8, rxCount := 0#11, starts := 0#32, hdrSeen := false, mode := c.mode } }

/-- R101: the registers a transmit session starts with; `S.mode` waits for the peer's solicitation. -/
def State.openTx (s : State) (c : SessionConfig) : State :=
  { s with
    cfg := c
    ses := { s.ses with xferred := 0#32, seqLast := 0#8, starts := 0#32 } }

/-- `RX_INIT` (R100). -/
def execRxInit (c : SessionConfig) (s : State) : Step :=
  if s.ses.node ≠ .idle then .next (s.answer .errConfig)
  else if !rxHandlesBound c then .next (s.answer .errConfig)
  else .next ((((s.openRx c).stamp).goto .rxStartWait).answer .cont)

/-- `TX_INIT` (R101); an illegal hint is refused once the configuration checks have passed (D15). -/
def execTxInit (c : SessionConfig) (s : State) : Step :=
  if s.ses.node ≠ .idle then .next (s.answer .errConfig)
  else if !txHandlesBound c then .next (s.answer .errConfig)
  else if !hintLegal c.pktHint then .refused .illegalHint
  else .next ((((s.openTx c).stamp).goto .txAwaitStart).answer .cont)

/-- The meaning of a receive arm. -/
def rxMeaning (a : RxArm) (s : State) : Step :=
  match a with
  | .idle => execRxIdle s
  | .start => execRxStart s
  | .hdrSoh => execRxHdrSoh s
  | .hdrStx => execRxHdrStx s
  | .hdrEot => execRxHdrEot s
  | .hdrCan => execRxHdrCan s
  | .hdrWait => execRxHdrWait s
  | .hdrTmoRetry => execRxHdrTmoRetry s
  | .hdrTmoStart => execRxHdrTmoStart s
  | .hdrTmoStall => execRxHdrTmoStall s
  | .bodyWait => execRxBodyWait s
  | .bodyTmo => execRxBodyTmo s
  | .bodyMismatch => execRxBodyMismatch s
  | .bodyBadsum => execRxBodyBadsum s
  | .bodyOverrun => execRxBodyOverrun s
  | .bodyStorefail => execRxBodyStorefail s
  | .bodyAccept => execRxBodyAccept s

/-- The meaning of a transmit arm. -/
def txMeaning (a : TxArm) (s : State) : Step :=
  match a with
  | .idle => execTxIdle s
  | .startC => execTxStartC s
  | .startNak => execTxStartNak s
  | .startCan => execTxStartCan s
  | .startWait => execTxStartWait s
  | .startTmoRetry => execTxStartTmoRetry s
  | .startTmoFatal => execTxStartTmoFatal s
  | .sendDone => execTxSendDone s
  | .sendStorefail => execTxSendStorefail s
  | .sendFrame => execTxSendFrame s
  | .ackLast => execTxAckLast s
  | .ackMore => execTxAckMore s
  | .ackNak => execTxAckNak s
  | .ackCan => execTxAckCan s
  | .ackWait => execTxAckWait s
  | .ackTmo => execTxAckTmo s

/-- `RX_STEP` (R102): exactly one arm runs, and its result is the result of the call. -/
def execRxStep (s : State) : Step :=
  match s.selectRx with
  | .next a => rxMeaning a s
  | .fault f => .fault f
  | .refused r => .refused r

/-- `TX_STEP` (R103): exactly one arm runs, and its result is the result of the call. -/
def execTxStep (s : State) : Step :=
  match s.selectTx with
  | .next a => txMeaning a s
  | .fault f => .fault f
  | .refused r => .refused r

end Sys2Proof.Machine
end

