-- ==== Sys2Proof/Machine/Integrator.lean ====
section
/-! DEFINITION. The integrator's micro-operations as instructions (43_integrity.md R181, R183). Each acts on `ACC` and on nothing else (log 24). -/

namespace Sys2Proof.Machine

/-- `SUM8.CLEAR` (R181). -/
def execSum8Clear (s : State) : Step :=
  .next (s.setAcc (sum8ClearAcc s.acc))

/-- `SUM8.ABSORB` (R181). -/
def execSum8Absorb (b : Byte) (s : State) : Step :=
  .next (s.setAcc (sum8AbsorbAcc s.acc b))

/-- `CRC16.CLEAR` (R183). -/
def execCrc16Clear (s : State) : Step :=
  .next (s.setAcc s.par.crcInit)

/-- `CRC16.ABSORB` (R183). -/
def execCrc16Absorb (b : Byte) (s : State) : Step :=
  .next (s.setAcc (crc16AbsorbAcc s.par s.acc b))

end Sys2Proof.Machine
end

