-- ==== Sys2Proof/Machine/Dispatch.lean ====
section
/-! DEFINITION. From an instruction to its meaning, one arm per constructor. -/

namespace Sys2Proof.Machine

/-- The meaning of an instruction at a state. -/
def exec (i : Instr) (s : State) : Host.Outcome State Fault Refusal :=
  match i with
  | .rxInit cfg => Sys2Proof.Machine.execRxInit cfg s
  | .rxStep => Sys2Proof.Machine.execRxStep s
  | .txInit cfg => Sys2Proof.Machine.execTxInit cfg s
  | .txStep => Sys2Proof.Machine.execTxStep s
  | .rxIdle => Sys2Proof.Machine.execRxIdle s
  | .txIdle => Sys2Proof.Machine.execTxIdle s
  | .rxStart => Sys2Proof.Machine.execRxStart s
  | .rxHdrSoh => Sys2Proof.Machine.execRxHdrSoh s
  | .rxHdrStx => Sys2Proof.Machine.execRxHdrStx s
  | .rxHdrEot => Sys2Proof.Machine.execRxHdrEot s
  | .rxHdrCan => Sys2Proof.Machine.execRxHdrCan s
  | .rxHdrWait => Sys2Proof.Machine.execRxHdrWait s
  | .rxHdrTmoRetry => Sys2Proof.Machine.execRxHdrTmoRetry s
  | .rxHdrTmoStart => Sys2Proof.Machine.execRxHdrTmoStart s
  | .rxHdrTmoStall => Sys2Proof.Machine.execRxHdrTmoStall s
  | .rxBodyWait => Sys2Proof.Machine.execRxBodyWait s
  | .rxBodyTmo => Sys2Proof.Machine.execRxBodyTmo s
  | .rxBodyMismatch => Sys2Proof.Machine.execRxBodyMismatch s
  | .rxBodyBadsum => Sys2Proof.Machine.execRxBodyBadsum s
  | .rxBodyOverrun => Sys2Proof.Machine.execRxBodyOverrun s
  | .rxBodyStorefail => Sys2Proof.Machine.execRxBodyStorefail s
  | .rxBodyAccept => Sys2Proof.Machine.execRxBodyAccept s
  | .txStartC => Sys2Proof.Machine.execTxStartC s
  | .txStartNak => Sys2Proof.Machine.execTxStartNak s
  | .txStartCan => Sys2Proof.Machine.execTxStartCan s
  | .txStartWait => Sys2Proof.Machine.execTxStartWait s
  | .txStartTmoRetry => Sys2Proof.Machine.execTxStartTmoRetry s
  | .txStartTmoFatal => Sys2Proof.Machine.execTxStartTmoFatal s
  | .txSendDone => Sys2Proof.Machine.execTxSendDone s
  | .txSendStorefail => Sys2Proof.Machine.execTxSendStorefail s
  | .txSendFrame => Sys2Proof.Machine.execTxSendFrame s
  | .txAckLast => Sys2Proof.Machine.execTxAckLast s
  | .txAckMore => Sys2Proof.Machine.execTxAckMore s
  | .txAckNak => Sys2Proof.Machine.execTxAckNak s
  | .txAckCan => Sys2Proof.Machine.execTxAckCan s
  | .txAckWait => Sys2Proof.Machine.execTxAckWait s
  | .txAckTmo => Sys2Proof.Machine.execTxAckTmo s
  | .sum8Clear => Sys2Proof.Machine.execSum8Clear s
  | .sum8Absorb b => Sys2Proof.Machine.execSum8Absorb b s
  | .crc16Clear => Sys2Proof.Machine.execCrc16Clear s
  | .crc16Absorb b => Sys2Proof.Machine.execCrc16Absorb b s

end Sys2Proof.Machine
end

