-- ==== Sys2Proof/Machine/Step.lean ====
section
/-! DEFINITION. One step of the machine: the next input is taken. A host call's select code is decoded and the instruction runs; a reset resets the engine; with nothing pending the engine does nothing (R2). -/

namespace Sys2Proof.Machine

/-- R2, R82, R230: one host call is one step of the engine. -/
def step (s : State) : Host.Outcome State Fault Refusal :=
  match s.inputs with
  | [] => .next s
  | .reset :: rest => .next { s with inputs := rest }.resetEngine
  | .call c :: rest => exec (decodeCall c.op c.operand) ({ s with inputs := rest }.accept c)

/-- The state whose next step runs the instruction of a word of spec/opcode_table.json (log 15); a
word that is no instruction changes nothing. -/
def State.withFetchWord (s : State) (nbits w : Nat) : State :=
  match tableKey nbits w with
  | some k => s.placeKey k
  | none => s

end Sys2Proof.Machine
end

