-- ==== Sys2Proof/Safety.lean ====
section
/-! DEFINITION. What the claims are stated in: what a poll finds, what may stand in the buffer, and the invariant that holds between steps (10_state.md R32). -/

namespace Sys2Proof

/-- R215: the nodes of an active receive session. -/
def Node.isRx : Node → Bool
  | .rxStartWait => true
  | .rxAwaitHeader => true
  | .rxAwaitBody => true
  | .idle => false
  | .txAwaitStart => false
  | .txSendPacket => false
  | .txAwaitAck => false

/-- R215: the nodes of an active transmit session. -/
def Node.isTx : Node → Bool
  | .txAwaitStart => true
  | .txSendPacket => true
  | .txAwaitAck => true
  | .idle => false
  | .rxStartWait => false
  | .rxAwaitHeader => false
  | .rxAwaitBody => false

namespace Machine

/-! ## What `RxPoll(1)` finds (R44, R79) -/

/-- The reader hands over one byte, and it is `b`. -/
def State.Polls (s : State) (b : Byte) : Prop :=
  s.ans.deliver = 1 ∧ s.inbound.head? = some b

/-- The reader keeps its contract for one byte and hands over none of the `known` bytes: no byte at
all, or another one. -/
def State.PollsNoneOf (s : State) (known : List Byte) : Prop :=
  s.ans.deliver = 0 ∨ ∃ b, s.Polls b ∧ b ∉ known

/-- The body step at hand can run: a marker is in the buffer, the reader keeps its contract. -/
def State.BodyStep (s : State) : Prop :=
  s.ses.node = .rxAwaitBody ∧ (s.ses.buf[0] = 0x01#8 ∨ s.ses.buf[0] = 0x02#8) ∧
    (s.request = 0 ∨ s.ans.deliver ≤ s.request ∧ s.ans.deliver ≤ s.inbound.length)

/-- The frame in the buffer is complete and carries the expected sequence number and its complement
(R132). -/
def State.FrameInSequence (s : State) : Prop :=
  s.bodyLength ≤ s.ses.rxCount.toNat ∧
    s.ses.buf[1] = nextSeq s.par s.ses.seqLast ∧ s.ses.buf[2] = 0xFF#8 - s.ses.buf[1]

/-- `CFG.start_retries`, of which 0 behaves as 1 (R24). -/
def State.budget (s : State) : Nat :=
  max s.cfg.startRetries.toNat 1

/-- What holds between steps (R32, R191, and what R12, R13, R18, R22, R156 say of the registers). -/
structure Inv (s : State) : Prop where
  /-- the store keeps its canonical form -/
  store_wf : s.store.wf = true
  /-- R32 (a) -/
  xferred_le : s.ses.node ≠ .idle → s.ses.xferred.toNat ≤ s.cfg.total.toNat
  /-- R32 (c) -/
  body_marker : s.ses.node = .rxAwaitBody → s.ses.buf[0] = 0x01#8 ∨ s.ses.buf[0] = 0x02#8
  /-- R32 (c) -/
  body_count : s.ses.node = .rxAwaitBody → s.ses.rxCount.toNat < s.bodyLength
  /-- R32 (d) -/
  body_latched : s.ses.node = .rxAwaitBody → s.ses.hdrSeen = true
  /-- R32 (d) -/
  accepted_latched : s.ses.node.isRx = true → s.ses.seqLast ≠ 0#8 → s.ses.hdrSeen = true
  /-- R13: 0 means no packet accepted yet, unless 255 is followed by 0 (R85) -/
  first_packet : s.par.seqWrapTo ≠ 0#8 → s.ses.node.isRx = true → s.ses.seqLast = 0#8 → s.ses.xferred = 0#32
  /-- R32 (e) -/
  solicited : s.ses.node = .rxAwaitHeader ∨ s.ses.node = .rxAwaitBody → 1 ≤ s.ses.starts.toNat
  /-- R126, R127: never more solicitations than the budget -/
  budget_le : s.ses.node.isRx = true → s.ses.starts.toNat ≤ s.budget
  /-- R126, R154: a start phase that goes on has budget left -/
  budget_lt : s.ses.node = .rxStartWait ∨ s.ses.node = .txAwaitStart → s.ses.starts.toNat < s.budget
  /-- R22 -/
  tx_hint : s.ses.node.isTx = true → s.cfg.pktHint = 128 ∨ s.cfg.pktHint = 1024
  /-- R101 -/
  tx_fresh : s.ses.node = .txAwaitStart → s.ses.xferred = 0#32 ∧ s.ses.seqLast = 0#8
  /-- R156: nothing is left to send only in a session of no bytes -/
  send_left : s.ses.node = .txSendPacket →
    s.ses.xferred.toNat < s.cfg.total.toNat ∨ s.ses.xferred = 0#32 ∧ s.cfg.total = 0#32
  /-- R167: the frame awaiting its `ACK` carries at least one byte -/
  ack_left : s.ses.node = .txAwaitAck → s.ses.xferred.toNat < s.cfg.total.toNat

end Machine

end Sys2Proof
end

