-- ==== Sys2Proof/Certificates/Slice0/Obligations.lean ====
section
/-! DEFINITION. The statements for the provers. The accumulator lives inside one operation (R33), so every operation leaves it at any value: `acc` under the existential (log 4). Each says in its docstring which rule of spec/ it formalises. An instruction's statement gives the whole next state, so that it says at once that the instruction completes, what it changes and what it leaves; every arm is stated both as an instruction and as what the step of its direction does. -/

open Sys2Proof Sys2Proof.Machine

/-! ## Inputs, decoding, codes -/

/-- R82, R2: a host call's next step is the decoded operation at the state the call finds (bytes
arrived, answers known); with nothing pending nothing happens. -/
def Obligations.StepRunsDecodedCall : Prop :=
  (∀ (s : State) (c : HostCall) (rest : List Input), s.inputs = .call c :: rest →
    step s = exec (decodeCall c.op c.operand)
      { s with
        inputs := rest, ans := c.ans, inbound := s.inbound ++ c.arrivals, store := s.store.poke c.pokes }) ∧
  (∀ s : State, s.inputs = [] → step s = .next s)

/-- R230: reset puts the node to `Idle`, calls no collaborator, emits nothing and touches neither
store nor streams; nothing is said of any other register. The same node right after power-on. -/
def Obligations.ResetGoesIdle : Prop :=
  (∀ (s : State) (rest : List Input), s.inputs = .reset :: rest →
    ∃ cfg ses acc free, step s = .next { s with
        inputs := rest, cfg := cfg, ses := ses, acc := acc, free := free } ∧ ses.node = .idle) ∧
  State.reset.ses.node = .idle

/-- R82: the four select codes; and a few words as the rules give them (R70, R79). -/
def Obligations.SelectCodesAndWordsDecode : Prop :=
  (∀ cfg : SessionConfig,
    decodeCall 0b00#2 cfg = .rxInit cfg ∧ decodeCall 0b01#2 cfg = .rxStep ∧
    decodeCall 0b10#2 cfg = .txInit cfg ∧ decodeCall 0b11#2 cfg = .txStep) ∧
  decodeByte .rxAwaitHeader 0b00000001#8 = some .rxHdrSoh ∧
  decodeByte .rxAwaitHeader 0b00011000#8 = some .rxHdrCan ∧
  decodeByte .rxAwaitHeader 0b01000011#8 = none ∧
  decodeByte .txAwaitStart 0b01000011#8 = some .txStartC ∧
  decodeByte .txAwaitAck 0b00010101#8 = some .txAckNak

/-- R79, R137, R165, R167: which bytes have an arm of their own in which node, whatever else the
step has seen; every other byte, or none, falls to the waiting and timeout arms; and the nodes that
poll for no control byte decode none. -/
def Obligations.RecognisedBytesSelectArms : Prop :=
  (∀ g : Signals,
    (decode (.rx .rxAwaitHeader g) = .ok .rxHdrSoh ↔ g.polled = some 0x01#8) ∧
    (decode (.rx .rxAwaitHeader g) = .ok .rxHdrStx ↔ g.polled = some 0x02#8) ∧
    (decode (.rx .rxAwaitHeader g) = .ok .rxHdrEot ↔ g.polled = some 0x04#8) ∧
    (decode (.rx .rxAwaitHeader g) = .ok .rxHdrCan ↔ g.polled = some 0x18#8) ∧
    ((∀ b ∈ [0x01#8, 0x02#8, 0x04#8, 0x18#8], g.polled ≠ some b) →
      decode (.rx .rxAwaitHeader g) ∈ ([.ok .rxHdrWait, .ok .rxHdrTmoRetry, .ok .rxHdrTmoStart,
        .ok .rxHdrTmoStall] : List (Except Reject Instr))) ∧
    (decode (.tx .txAwaitStart g) = .ok .txStartC ↔ g.polled = some 0x43#8) ∧
    (decode (.tx .txAwaitStart g) = .ok .txStartNak ↔ g.polled = some 0x15#8) ∧
    (decode (.tx .txAwaitStart g) = .ok .txStartCan ↔ g.polled = some 0x18#8) ∧
    ((∀ b ∈ [0x43#8, 0x15#8, 0x18#8], g.polled ≠ some b) →
      decode (.tx .txAwaitStart g) ∈ ([.ok .txStartWait, .ok .txStartTmoRetry,
        .ok .txStartTmoFatal] : List (Except Reject Instr))) ∧
    (decode (.tx .txAwaitAck g) ∈ ([.ok .txAckLast, .ok .txAckMore] : List (Except Reject Instr)) ↔
      g.polled = some 0x06#8) ∧
    (decode (.tx .txAwaitAck g) = .ok .txAckNak ↔ g.polled = some 0x15#8) ∧
    (decode (.tx .txAwaitAck g) = .ok .txAckCan ↔ g.polled = some 0x18#8) ∧
    ((∀ b ∈ [0x06#8, 0x15#8, 0x18#8], g.polled ≠ some b) →
      decode (.tx .txAwaitAck g) ∈ ([.ok .txAckWait, .ok .txAckTmo] : List (Except Reject Instr)))) ∧
  (∀ (g : Signals) (o : Option Byte),
    decode (.rx .rxAwaitBody { g with polled := o }) = decode (.rx .rxAwaitBody g) ∧
    decode (.rx .rxStartWait { g with polled := o }) = decode (.rx .rxStartWait g) ∧
    decode (.tx .txSendPacket { g with polled := o }) = decode (.tx .txSendPacket g))

/-- The dispatch map and its inverse agree, for every instruction with every operand. The keys of
the arms no byte or select code names are the table's conditions, in the form of log 1. -/
def Obligations.DecodeOfEncodeIsIdentity : Prop :=
  ∀ i : Instr, decode (encode i) = .ok i

/-- R31, R83: under a numbering as the spec asks for, zero is the one code that is not terminal, and no
two results share a code; the spec's own numbering is one. -/
def Obligations.ResultCodesDistinct : Prop :=
  (∀ p : Config.Params, resultCodesLegal p.resultCodes = true →
    (∀ r : Result, resultCode p r = 0 ↔ r = .cont) ∧
    (∀ r q : Result, resultCode p r = resultCode p q → r = q)) ∧
  resultCodesLegal params.resultCodes = true ∧
  [Result.cont, .success, .errConfig, .errIdle, .errStartTimeout, .errHeaderTimeout, .errAckTimeout,
    .errMismatch, .errPeerCancel, .errStore, .errEarlyEot].map (resultCode params) = List.range 11

/-! ## Operand values -/

/-- R85: the successor of a sequence number, for every value of the parameter; and the one in use. -/
def Obligations.SequenceSuccessor : Prop :=
  (∀ (p : Config.Params) (q : Byte), q.toNat ≤ 254 → (nextSeq p q).toNat = q.toNat + 1) ∧
  (∀ p : Config.Params, nextSeq p 0xFF#8 = p.seqWrapTo) ∧ params.seqWrapTo = 1#8

/-- R72, R73: the four frame variants. -/
def Obligations.FrameVariants : Prop :=
  (psize 0x01#8 = some 128 ∧ psize 0x02#8 = some 1024 ∧ markerOf 128 = some 0x01#8 ∧
    markerOf 1024 = some 0x02#8) ∧
  (flen 128 .sum = 132 ∧ flen 128 .crc = 133 ∧ flen 1024 .sum = 1028 ∧ flen 1024 .crc = 1029) ∧
  (blen 128 .sum = 131 ∧ blen 128 .crc = 132 ∧ blen 1024 .sum = 1027 ∧ blen 1024 .crc = 1028)

/-- R217: elapsed time is the true difference modulo 2^32, expiry is `>=` on unsigned values, and a
zero timeout is always expired; under the parameter's other reading (U16) expiry is `>`. -/
def Obligations.ElapsedIsModular : Prop :=
  (∀ (s : State) (now : Word32),
    (s.elapsed now).toNat = (now.toNat + 2 ^ 32 - s.ses.tLast.toNat) % 2 ^ 32) ∧
  (∀ (p : Config.Params) (e t : Word32), p.tmoStrict = false →
    (tmoExpired p e t = true ↔ t.toNat ≤ e.toNat) ∧ tmoExpired p e 0#32 = true) ∧
  (∀ (p : Config.Params) (e t : Word32), p.tmoStrict = true →
    (tmoExpired p e t = true ↔ t.toNat < e.toNat)) ∧
  params.tmoStrict = false

/-! ## Host operations -/

/-- R100: `RX_INIT`, accepted, rejected for an unbound capability, rejected for an active session. -/
def Obligations.RxInitStartsOrRejects : Prop :=
  ∀ (s : State) (c : SessionConfig),
    (s.ses.node ≠ .idle → ∃ acc free, exec (.rxInit c) s = .next { s with acc := acc, free := free, res := some .errConfig }) ∧
    (s.ses.node = .idle → ¬ (c.hClock = true ∧ c.hWriter = true ∧ c.hReader = true ∧ c.hStoreWr = true) →
      ∃ acc free, exec (.rxInit c) s = .next { s with acc := acc, free := free, res := some .errConfig }) ∧
    (s.ses.node = .idle → c.hClock = true → c.hWriter = true → c.hReader = true → c.hStoreWr = true →
      ∃ acc free, exec (.rxInit c) s = .next { s with
        acc := acc, free := free, cfg := c
        ses := { s.ses with
          xferred := 0#32, seqLast := 0#8, rxCount := 0#11, starts := 0#32, hdrSeen := false
          mode := c.mode, tLast := s.ans.now, node := .rxStartWait }
        history := s.history ++ [.now s.ans.now]
        res := some .cont })

/-- R101: `TX_INIT`, accepted, rejected for an unbound capability or an active session, refused for
a hint that is no payload size once those checks have passed. -/
def Obligations.TxInitStartsOrRejects : Prop :=
  ∀ (s : State) (c : SessionConfig),
    (s.ses.node ≠ .idle → ∃ acc free, exec (.txInit c) s = .next { s with acc := acc, free := free, res := some .errConfig }) ∧
    (s.ses.node = .idle → ¬ (c.hClock = true ∧ c.hWriter = true ∧ c.hReader = true ∧ c.hStoreRd = true) →
      ∃ acc free, exec (.txInit c) s = .next { s with acc := acc, free := free, res := some .errConfig }) ∧
    (s.ses.node = .idle → c.hClock = true → c.hWriter = true → c.hReader = true → c.hStoreRd = true →
      c.pktHint = 128 ∨ c.pktHint = 1024 →
      ∃ acc free, exec (.txInit c) s = .next { s with
        acc := acc, free := free, cfg := c
        ses := { s.ses with
          xferred := 0#32, seqLast := 0#8, starts := 0#32, tLast := s.ans.now, node := .txAwaitStart }
        history := s.history ++ [.now s.ans.now]
        res := some .cont }) ∧
    (s.ses.node = .idle → c.hClock = true → c.hWriter = true → c.hReader = true → c.hStoreRd = true →
      c.pktHint ≠ 128 → c.pktHint ≠ 1024 → exec (.txInit c) s = .refused .illegalHint)

/-- R104, R105: a step with no session returns the idle error and does nothing else. -/
def Obligations.IdleStepAnswersIdleError : Prop :=
  ∀ s : State, s.ses.node = .idle → ∀ i ∈ ([.rxIdle, .rxStep, .txIdle, .txStep] : List Instr),
    ∃ acc free, exec i s = .next { s with acc := acc, free := free, res := some .errIdle }

/-- R108: a step of one direction in a node of the other is refused. -/
def Obligations.WrongDirectionRefused : Prop :=
  ∀ s : State,
    (s.ses.node.isTx = true → exec .rxStep s = .refused .wrongDirection) ∧
    (s.ses.node.isRx = true → exec .txStep s = .refused .wrongDirection)

/-- R102, R103: a step runs exactly one arm, of its node's group, and answers what the arm answers;
every other arm of its direction is no step here. -/
def Obligations.ExactlyOneArmRuns : Prop :=
  (∀ (s : State) (a : RxArm), s.selectRx = .next a →
    exec .rxStep s = exec a.instr s ∧
    (∀ b : RxArm, b ≠ a → exec b.instr s = .refused .armNotSelected) ∧
    (s.ses.node, a) ∈ ([(.idle, .idle), (.rxStartWait, .start), (.rxAwaitHeader, .hdrSoh),
      (.rxAwaitHeader, .hdrStx), (.rxAwaitHeader, .hdrEot), (.rxAwaitHeader, .hdrCan),
      (.rxAwaitHeader, .hdrWait), (.rxAwaitHeader, .hdrTmoRetry), (.rxAwaitHeader, .hdrTmoStart),
      (.rxAwaitHeader, .hdrTmoStall), (.rxAwaitBody, .bodyWait), (.rxAwaitBody, .bodyTmo),
      (.rxAwaitBody, .bodyMismatch), (.rxAwaitBody, .bodyBadsum), (.rxAwaitBody, .bodyOverrun),
      (.rxAwaitBody, .bodyStorefail), (.rxAwaitBody, .bodyAccept)] : List (Node × RxArm))) ∧
  (∀ (s : State) (a : TxArm), s.selectTx = .next a →
    exec .txStep s = exec a.instr s ∧
    (∀ b : TxArm, b ≠ a → exec b.instr s = .refused .armNotSelected) ∧
    (s.ses.node, a) ∈ ([(.idle, .idle), (.txAwaitStart, .startC), (.txAwaitStart, .startNak),
      (.txAwaitStart, .startCan), (.txAwaitStart, .startWait), (.txAwaitStart, .startTmoRetry),
      (.txAwaitStart, .startTmoFatal), (.txSendPacket, .sendDone), (.txSendPacket, .sendStorefail),
      (.txSendPacket, .sendFrame), (.txAwaitAck, .ackLast), (.txAwaitAck, .ackMore),
      (.txAwaitAck, .ackNak), (.txAwaitAck, .ackCan), (.txAwaitAck, .ackWait),
      (.txAwaitAck, .ackTmo)] : List (Node × TxArm)))

/-- R44: a reader that answers more than was asked or than is buffered has no step, in every polling node. -/
def Obligations.BrokenReaderRefused : Prop :=
  ∀ s : State,
    (s.ans.deliver > 1 ∨ s.ans.deliver > s.inbound.length →
      (s.ses.node = .rxAwaitHeader → exec .rxStep s = .refused .readerContract) ∧
      (s.ses.node = .txAwaitStart ∨ s.ses.node = .txAwaitAck →
        exec .txStep s = .refused .readerContract)) ∧
    (s.ses.node = .rxAwaitBody → s.ses.buf[0] = 0x01#8 ∨ s.ses.buf[0] = 0x02#8 → s.request ≠ 0 →
      s.ans.deliver > s.request ∨ s.ans.deliver > s.inbound.length →
      exec .rxStep s = .refused .readerContract)

/-- R42, R43: a store accessor that answers neither 0 nor `n` has no step, on a write and on a read. -/
def Obligations.ShortStoreAccessRefused : Prop :=
  (∀ s : State, s.BodyStep → s.accumulate.FrameInSequence → s.accumulate.integrityOk = true →
    0 < s.remaining → s.ans.stored ≠ 0 → s.ans.stored ≠ s.chunk s.frameSize →
    ∀ i ∈ ([.rxBodyAccept, .rxStep] : List Instr), exec i s = .refused .storeContract) ∧
  (∀ s : State, s.ses.node = .txSendPacket → s.cfg.pktHint = 128 ∨ s.cfg.pktHint = 1024 →
    0 < s.remaining → s.ans.stored ≠ 0 → s.ans.stored ≠ s.chunk s.cfg.pktHint →
    ∀ i ∈ ([.txSendFrame, .txStep] : List Instr), exec i s = .refused .storeContract)

/-! ## Receive: start and header -/

/-- R120: the solicitation goes out, is counted and stamps the clock. -/
def Obligations.RxStartSolicits : Prop :=
  ∀ s : State, s.ses.node = .rxStartWait → ∀ i ∈ ([.rxStart, .rxStep] : List Instr),
    ∃ acc free, exec i s = .next { s with
      acc := acc, free := free
      ses := { s.ses with
        starts := s.ses.starts + 1#32, tLast := s.ans.now, node := .rxAwaitHeader }
      history := s.history ++ [.txEmit [if s.ses.mode = .crc then 0x43#8 else 0x15#8], .now s.ans.now]
      res := some .cont }

/-- R121, R122: a marker opens a frame, however late it comes. That the latch is set here is conflict
C2's choice (log 26); that the buffer's other bytes stay is the model's (log 28). -/
def Obligations.HeaderMarkerOpensFrame : Prop :=
  ∀ (s : State) (marker : Byte), s.ses.node = .rxAwaitHeader → s.Polls marker →
    ∀ i : Instr,
      (marker = 0x01#8 ∧ i ∈ ([.rxHdrSoh, .rxStep] : List Instr) ∨
        marker = 0x02#8 ∧ i ∈ ([.rxHdrStx, .rxStep] : List Instr)) →
      ∃ acc free, exec i s = .next { s with
        acc := acc, free := free
        ses := { s.ses with
          buf := s.ses.buf.set 0 marker, rxCount := 0#11, hdrSeen := true, tLast := s.ans.now
          node := .rxAwaitBody }
        inbound := s.inbound.tail
        history := s.history ++ [.rxPoll 1 [marker], .now s.ans.now]
        res := some .cont }

/-- R123: an `EOT` is acknowledged, and ends the session in success exactly when the total has been
reached; the clock is not read. -/
def Obligations.HeaderEotEndsSession : Prop :=
  ∀ s : State, s.ses.node = .rxAwaitHeader → s.Polls 0x04#8 →
    ∀ i ∈ ([.rxHdrEot, .rxStep] : List Instr), ∃ ses acc free,
      exec i s = .next { s with
        ses := ses, acc := acc, free := free
        inbound := s.inbound.tail
        history := s.history ++ [.rxPoll 1 [0x04#8], .txEmit [0x06#8]]
        res := some (if s.ses.xferred = s.cfg.total then .success else .errEarlyEot) } ∧
      ses.node = .idle

/-- R124, R152, R162: a `CAN` polled in a control-byte node ends the session at once and in silence (that
nothing is emitted is decision D17, log 27). -/
def Obligations.PeerCancelEndsSession : Prop :=
  ∀ s : State, s.Polls 0x18#8 → ∀ i : Instr,
    (s.ses.node = .rxAwaitHeader ∧ i ∈ ([.rxHdrCan, .rxStep] : List Instr) ∨
      s.ses.node = .txAwaitStart ∧ i ∈ ([.txStartCan, .txStep] : List Instr) ∨
      s.ses.node = .txAwaitAck ∧ i ∈ ([.txAckCan, .txStep] : List Instr)) →
    ∃ ses acc free,
      exec i s = .next { s with
        ses := ses, acc := acc, free := free
        inbound := s.inbound.tail
        history := s.history ++ [.rxPoll 1 [0x18#8]]
        res := some .errPeerCancel } ∧
      ses.node = .idle

/-- R125, R153, R163: with no recognised byte and the timeout not run out, a step only polls and
reads the clock; an unrecognised byte is gone and no register changes. -/
def Obligations.WaitingChangesNoRegister : Prop :=
  ∀ s : State, tmoExpired s.par (s.elapsed s.ans.now) s.cfg.ackTimeoutMs = false → ∀ i : Instr,
    (s.ses.node = .rxAwaitHeader ∧ s.PollsNoneOf [0x01#8, 0x02#8, 0x04#8, 0x18#8] ∧
        i ∈ ([.rxHdrWait, .rxStep] : List Instr) ∨
      s.ses.node = .txAwaitStart ∧ s.PollsNoneOf [0x43#8, 0x15#8, 0x18#8] ∧
        i ∈ ([.txStartWait, .txStep] : List Instr) ∨
      s.ses.node = .txAwaitAck ∧ s.PollsNoneOf [0x06#8, 0x15#8, 0x18#8] ∧
        i ∈ ([.txAckWait, .txStep] : List Instr)) →
    ∃ acc free, exec i s = .next { s with
      acc := acc, free := free
      inbound := s.inbound.drop s.ans.deliver
      history := s.history ++ [.rxPoll 1 (s.inbound.take s.ans.deliver), .now s.ans.now]
      res := some .cont }

/-- R126, R127, R128: what a header timeout does. Before the first marker it solicits again while the
budget lasts and is then fatal; after it, it is fatal at once, the budget not consulted. -/
def Obligations.HeaderTimeout : Prop :=
  ∀ s : State, s.ses.node = .rxAwaitHeader → s.PollsNoneOf [0x01#8, 0x02#8, 0x04#8, 0x18#8] →
    tmoExpired s.par (s.elapsed s.ans.now) s.cfg.ackTimeoutMs = true →
    (s.ses.hdrSeen = false → s.ses.starts.toNat < s.cfg.startRetries.toNat →
      ∀ i ∈ ([.rxHdrTmoRetry, .rxStep] : List Instr),
        ∃ acc free, exec i s = .next { s with
          acc := acc, free := free
          ses := { s.ses with node := .rxStartWait }
          inbound := s.inbound.drop s.ans.deliver
          history := s.history ++ [.rxPoll 1 (s.inbound.take s.ans.deliver), .now s.ans.now]
          res := some .cont }) ∧
    (s.ses.hdrSeen = false → s.cfg.startRetries.toNat ≤ s.ses.starts.toNat →
      ∀ i ∈ ([.rxHdrTmoStart, .rxStep] : List Instr), ∃ ses acc free,
        exec i s = .next { s with
          ses := ses, acc := acc, free := free
          inbound := s.inbound.drop s.ans.deliver
          history := s.history ++ [.rxPoll 1 (s.inbound.take s.ans.deliver), .now s.ans.now]
          res := some .errStartTimeout } ∧
        ses.node = .idle) ∧
    (s.ses.hdrSeen = true →
      ∀ i ∈ ([.rxHdrTmoStall, .rxStep] : List Instr), ∃ ses acc free,
        exec i s = .next { s with
          ses := ses, acc := acc, free := free
          inbound := s.inbound.drop s.ans.deliver
          history := s.history ++ [.rxPoll 1 (s.inbound.take s.ans.deliver), .now s.ans.now]
          res := some .errHeaderTimeout } ∧
        ses.node = .idle)

/-! ## Receive: frame body -/

/-- R129: accumulation asks for what the frame needs, or for what is buffered where that is known
and less; the bytes go to the next frame offsets and are counted; nothing else changes. That the
buffer's bytes beyond the frame keep their values is the model's choice (log 28). -/
def Obligations.AccumulationFillsFrame : Prop :=
  ∀ s : State, s.BodyStep → s.ses.rxCount.toNat < s.bodyLength →
    s.request = (if s.cfg.hAvail = true then min s.ans.avail (s.bodyLength - s.ses.rxCount.toNat)
      else s.bodyLength - s.ses.rxCount.toNat) ∧
    ∃ (got : List Byte) (buf : Buf) (count : BitVec 11),
      got = (if s.request = 0 then [] else s.inbound.take s.ans.deliver) ∧
      s.accumulate = { s with
        ses := { s.ses with buf := buf, rxCount := count }
        inbound := s.inbound.drop got.length
        history := s.history ++ (if s.cfg.hAvail = true then [.rxAvail s.ans.avail] else []) ++
          (if s.request = 0 then [] else [.rxPoll s.request got]) } ∧
      count.toNat = s.ses.rxCount.toNat + got.length ∧ count.toNat ≤ s.bodyLength ∧
      (∀ j (_ : j < got.length) (_ : 1 + s.ses.rxCount.toNat + j < 1029),
        buf[1 + s.ses.rxCount.toNat + j] = got[j]) ∧
      (∀ k (_ : k < 1029), (k ≤ s.ses.rxCount.toNat ∨ s.ses.rxCount.toNat + got.length < k) →
        buf[k] = s.ses.buf[k])

/-- R129, its last sentence: how the reader splits the bytes over the steps does not matter. -/
def Obligations.AccumulationSplitsAgree : Prop :=
  ∀ (s : State) (j k : Nat), s.ses.node = .rxAwaitBody → s.ses.buf[0] = 0x01#8 ∨ s.ses.buf[0] = 0x02#8 →
    s.cfg.hAvail = false → s.ses.rxCount.toNat + (j + k) ≤ s.bodyLength → j + k ≤ s.inbound.length →
    let first := { s with ans := { s.ans with deliver := j } }.accumulate
    let second := { first with ans := { first.ans with deliver := k } }.accumulate
    let whole := { s with ans := { s.ans with deliver := j + k } }.accumulate
    second.ses = whole.ses ∧ second.inbound = whole.inbound

/-- R130, R131: a body still incomplete after accumulation waits, or, its timeout run out, asks for
the packet again; neither moves the running offset or the sequence number. -/
def Obligations.IncompleteBodyWaitsOrNaks : Prop :=
  ∀ s : State, s.BodyStep → s.accumulate.ses.rxCount.toNat < s.bodyLength →
    (tmoExpired s.par (s.elapsed s.ans.now) s.cfg.pktTimeoutMs = false →
      ∀ i ∈ ([.rxBodyWait, .rxStep] : List Instr),
        ∃ acc free, exec i s = .next { s.accumulate with
          acc := acc, free := free
          history := s.accumulate.history ++ [.now s.ans.now]
          res := some .cont }) ∧
    (tmoExpired s.par (s.elapsed s.ans.now) s.cfg.pktTimeoutMs = true →
      ∀ i ∈ ([.rxBodyTmo, .rxStep] : List Instr),
        ∃ acc free, exec i s = .next { s.accumulate with
          acc := acc, free := free
          ses := { s.accumulate.ses with tLast := s.ans.now, node := .rxAwaitHeader }
          history := s.accumulate.history ++ [.now s.ans.now, .txEmit [0x15#8]]
          res := some .cont })

/-- R132: a complete frame with another sequence number, or with a wrong complement, cancels the peer
and ends the session, whatever its integrity field and however late it is. -/
def Obligations.MismatchIsFatal : Prop :=
  ∀ s : State, s.BodyStep → s.bodyLength ≤ s.accumulate.ses.rxCount.toNat →
    (s.accumulate.ses.buf[1] ≠ nextSeq s.par s.ses.seqLast ∨
      s.accumulate.ses.buf[2] ≠ 0xFF#8 - s.accumulate.ses.buf[1]) →
    ∀ i ∈ ([.rxBodyMismatch, .rxStep] : List Instr), ∃ ses acc free,
      exec i s = .next { s.accumulate with
        ses := ses, acc := acc, free := free
        history := s.accumulate.history ++ [.txEmit [0x18#8]]
        res := some .errMismatch } ∧
      ses.node = .idle

/-- R133: a frame in sequence whose integrity field is wrong is asked for again; offset and sequence
number stay, the store is not touched. -/
def Obligations.BadIntegrityAsksAgain : Prop :=
  ∀ s : State, s.BodyStep → s.accumulate.FrameInSequence →
    slice s.accumulate.ses.buf (3 + s.frameSize) (ilen s.ses.mode)
      ≠ integrityBytes s.par s.ses.mode (slice s.accumulate.ses.buf 3 s.frameSize) →
    ∀ i ∈ ([.rxBodyBadsum, .rxStep] : List Instr), ∃ acc free,
      exec i s = .next { s.accumulate with
        acc := acc, free := free
        ses := { s.accumulate.ses with tLast := s.ans.now, node := .rxAwaitHeader }
        history := s.accumulate.history ++ [.txEmit [0x15#8], .now s.ans.now]
        res := some .cont }

/-- R134: a good frame past the total cancels the peer and ends the session in success; no store access. -/
def Obligations.OverrunEndsInSuccess : Prop :=
  ∀ s : State, s.BodyStep → s.accumulate.FrameInSequence → s.accumulate.integrityOk = true →
    s.cfg.total = s.ses.xferred →
    ∀ i ∈ ([.rxBodyOverrun, .rxStep] : List Instr), ∃ ses acc free,
      exec i s = .next { s.accumulate with
        ses := ses, acc := acc, free := free
        history := s.accumulate.history ++ [.txEmit [0x18#8]]
        res := some .success } ∧
      ses.node = .idle

/-- R135, R42: a good frame whose write fails cancels the peer and ends the session; of the store,
only the bytes of that write may have changed. -/
def Obligations.StoreFailureIsFatal : Prop :=
  ∀ s : State, s.BodyStep → s.accumulate.FrameInSequence → s.accumulate.integrityOk = true →
    s.ses.xferred.toNat < s.cfg.total.toNat → s.ans.stored = 0 →
    ∀ i ∈ ([.rxBodyStorefail, .rxStep] : List Instr), ∃ ses acc free store,
      exec i s = .next { s.accumulate with
        ses := ses, acc := acc, free := free, store := store
        history := s.accumulate.history ++
          [.memWrite s.storeAddr (s.chunk s.frameSize) (slice s.accumulate.ses.buf 3 (s.chunk s.frameSize)) 0,
            .txEmit [0x18#8]]
        res := some .errStore } ∧
      ses.node = .idle ∧
      (∀ x : Nat, (∀ j < s.chunk s.frameSize, x ≠ (s.storeAddr + BitVec.ofNat 32 j).toNat) →
        store.read? x = s.store.read? x)

/-- R136: a good packet delivers its first `min(remaining, P)` payload bytes at the running offset,
and no other store byte changes; offset and sequence number move on; the `ACK` follows the write. Byte
`j` goes to base + `j` modulo 2^32 by R42 and R49 (decisions D1 and D21, log 27). -/
def Obligations.AcceptDeliversPacket : Prop :=
  ∀ s : State, s.BodyStep → s.accumulate.FrameInSequence → s.accumulate.integrityOk = true →
    s.ses.xferred.toNat < s.cfg.total.toNat →
    s.ans.stored = min (s.cfg.total.toNat - s.ses.xferred.toNat) s.frameSize →
    ∀ i ∈ ([.rxBodyAccept, .rxStep] : List Instr), ∃ acc free store,
      exec i s = .next { s.accumulate with
        acc := acc, free := free, store := store
        ses := { s.accumulate.ses with
          xferred := s.ses.xferred + BitVec.ofNat 32 s.ans.stored
          seqLast := s.accumulate.ses.buf[1], tLast := s.ans.now, node := .rxAwaitHeader }
        history := s.accumulate.history ++
          [.memWrite s.storeAddr s.ans.stored (slice s.accumulate.ses.buf 3 s.ans.stored) s.ans.stored,
            .txEmit [0x06#8], .now s.ans.now]
        res := some .cont } ∧
      (∀ j (_ : j < s.ans.stored) (_ : 3 + j < 1029),
        store.read? (s.storeAddr + BitVec.ofNat 32 j).toNat = some s.accumulate.ses.buf[3 + j]) ∧
      (∀ x : Nat, (∀ j < s.ans.stored, x ≠ (s.storeAddr + BitVec.ofNat 32 j).toNat) →
        store.read? x = s.store.read? x)

/-! ## Transmit -/

/-- R150, R151: the peer's solicitation fixes the session's integrity mode. -/
def Obligations.SolicitationFixesMode : Prop :=
  ∀ (s : State) (b : Byte) (m : Mode), s.ses.node = .txAwaitStart → s.Polls b → ∀ i : Instr,
    (b = 0x43#8 ∧ m = .crc ∧ i ∈ ([.txStartC, .txStep] : List Instr) ∨
      b = 0x15#8 ∧ m = .sum ∧ i ∈ ([.txStartNak, .txStep] : List Instr)) →
    ∃ acc free, exec i s = .next { s with
      acc := acc, free := free
      ses := { s.ses with mode := m, tLast := s.ans.now, node := .txSendPacket }
      inbound := s.inbound.tail
      history := s.history ++ [.rxPoll 1 [b], .now s.ans.now]
      res := some .cont }

/-- R154, R155: an interval without a solicitation opens the next one while the budget lasts, and is
then fatal. -/
def Obligations.StartIntervalExpires : Prop :=
  ∀ s : State, s.ses.node = .txAwaitStart → s.PollsNoneOf [0x43#8, 0x15#8, 0x18#8] →
    tmoExpired s.par (s.elapsed s.ans.now) s.cfg.ackTimeoutMs = true →
    (s.ses.starts.toNat + 1 < s.cfg.startRetries.toNat →
      ∀ i ∈ ([.txStartTmoRetry, .txStep] : List Instr),
        ∃ acc free, exec i s = .next { s with
          acc := acc, free := free
          ses := { s.ses with starts := s.ses.starts + 1#32, tLast := s.ans.now }
          inbound := s.inbound.drop s.ans.deliver
          history := s.history ++ [.rxPoll 1 (s.inbound.take s.ans.deliver), .now s.ans.now]
          res := some .cont }) ∧
    (s.cfg.startRetries.toNat ≤ s.ses.starts.toNat + 1 →
      ∀ i ∈ ([.txStartTmoFatal, .txStep] : List Instr), ∃ ses acc free,
        exec i s = .next { s with
          ses := ses, acc := acc, free := free
          inbound := s.inbound.drop s.ans.deliver
          history := s.history ++ [.rxPoll 1 (s.inbound.take s.ans.deliver), .now s.ans.now]
          res := some .errStartTimeout } ∧
        ses.node = .idle)

/-- R156: with nothing left the session ends in an `EOT` and success; no store access. -/
def Obligations.NothingLeftEndsTransmission : Prop :=
  ∀ s : State, s.ses.node = .txSendPacket → s.cfg.pktHint = 128 ∨ s.cfg.pktHint = 1024 →
    s.ses.xferred = s.cfg.total →
    ∀ i ∈ ([.txSendDone, .txStep] : List Instr), ∃ ses acc free,
      exec i s = .next { s with
        ses := ses, acc := acc, free := free
        history := s.history ++ [.txEmit [0x04#8]]
        res := some .success } ∧
      ses.node = .idle

/-- R157: a failed store read cancels the peer and ends the session; no frame byte goes out. -/
def Obligations.SourceFailureIsFatal : Prop :=
  ∀ s : State, s.ses.node = .txSendPacket → s.cfg.pktHint = 128 ∨ s.cfg.pktHint = 1024 →
    s.ses.xferred.toNat < s.cfg.total.toNat → s.ans.stored = 0 →
    ∀ i ∈ ([.txSendStorefail, .txStep] : List Instr), ∃ ses acc free,
      exec i s = .next { s with
        ses := ses, acc := acc, free := free
        history := s.history ++ [.memRead s.storeAddr (s.chunk s.cfg.pktHint) 0, .txEmit [0x18#8]]
        res := some .errStore } ∧
      ses.node = .idle

/-- R158: one frame goes out in one piece: marker, sequence number, complement, the bytes read,
filler up to the payload size, integrity field over all of that payload. It stands in the packet
buffer, whose other bytes stay; offset and sequence number do not move yet. Byte `i`
is read at base + `i` (R43, R49, D21, logs 7, 27), the CRC is D20's (log 25), that the buffer's later
bytes stay is the model's choice (log 28). -/
def Obligations.SendEmitsFrame : Prop :=
  ∀ (s : State) (marker : Byte), s.ses.node = .txSendPacket →
    (s.cfg.pktHint = 128 ∧ marker = 0x01#8 ∨ s.cfg.pktHint = 1024 ∧ marker = 0x02#8) →
    s.ses.xferred.toNat < s.cfg.total.toNat →
    s.ans.stored = min s.cfg.pktHint (s.cfg.total.toNat - s.ses.xferred.toNat) →
    ∀ i ∈ ([.txSendFrame, .txStep] : List Instr), ∃ (acc : Acc) (free : Nat) (buf : Buf)
      (seq : Byte) (payload frame : List Byte),
      seq = nextSeq s.par s.ses.seqLast ∧
      payload = s.store.readBytes s.storeAddr s.ans.stored ++
        List.replicate (s.cfg.pktHint - s.ans.stored) 0x1A#8 ∧
      frame = [marker, seq, 0xFF#8 - seq] ++ payload ++
        (match s.ses.mode with
          | .sum => [sum8 payload]
          | .crc => [(crc16 s.par payload).extractLsb' 8 8, (crc16 s.par payload).extractLsb' 0 8]) ∧
      frame.length = flen s.cfg.pktHint s.ses.mode ∧
      buf.toList = frame ++ s.ses.buf.toList.drop frame.length ∧
      exec i s = .next { s with
        acc := acc, free := free
        ses := { s.ses with buf := buf, tLast := s.ans.now, node := .txAwaitAck }
        history := s.history ++
          [.memRead s.storeAddr s.ans.stored s.ans.stored, .txEmit frame, .now s.ans.now]
        res := some .cont }

/-- R159: the `ACK` of the packet that completes the total is answered with `EOT` and ends the
session in success; the clock is not read. -/
def Obligations.LastAckEndsTransmission : Prop :=
  ∀ s : State, s.ses.node = .txAwaitAck → s.Polls 0x06#8 →
    s.ses.xferred.toNat + min s.cfg.pktHint (s.cfg.total.toNat - s.ses.xferred.toNat) = s.cfg.total.toNat →
    ∀ i ∈ ([.txAckLast, .txStep] : List Instr), ∃ ses acc free,
      exec i s = .next { s with
        ses := ses, acc := acc, free := free
        inbound := s.inbound.tail
        history := s.history ++ [.rxPoll 1 [0x06#8], .txEmit [0x04#8]]
        res := some .success } ∧
      ses.node = .idle

/-- R160: any other `ACK` moves offset and sequence number on. -/
def Obligations.AckAdvancesTransmission : Prop :=
  ∀ s : State, s.ses.node = .txAwaitAck → s.Polls 0x06#8 →
    s.ses.xferred.toNat + s.cfg.pktHint < s.cfg.total.toNat →
    ∀ i ∈ ([.txAckMore, .txStep] : List Instr),
      ∃ acc free, exec i s = .next { s with
        acc := acc, free := free
        ses := { s.ses with
          xferred := s.ses.xferred + BitVec.ofNat 32 s.cfg.pktHint
          seqLast := nextSeq s.par s.ses.seqLast, tLast := s.ans.now, node := .txSendPacket }
        inbound := s.inbound.tail
        history := s.history ++ [.rxPoll 1 [0x06#8], .now s.ans.now]
        res := some .cont }

/-- R161: a `NAK` leads back to sending with offset, sequence number and mode unchanged. -/
def Obligations.NakResendsSamePacket : Prop :=
  ∀ s : State, s.ses.node = .txAwaitAck → s.Polls 0x15#8 →
    ∀ i ∈ ([.txAckNak, .txStep] : List Instr),
      ∃ acc free, exec i s = .next { s with
        acc := acc, free := free
        ses := { s.ses with tLast := s.ans.now, node := .txSendPacket }
        inbound := s.inbound.tail
        history := s.history ++ [.rxPoll 1 [0x15#8], .now s.ans.now]
        res := some .cont }

/-- R164: no reply within the timeout ends the session in silence. -/
def Obligations.AckTimeoutIsFatal : Prop :=
  ∀ s : State, s.ses.node = .txAwaitAck → s.PollsNoneOf [0x06#8, 0x15#8, 0x18#8] →
    tmoExpired s.par (s.elapsed s.ans.now) s.cfg.ackTimeoutMs = true →
    ∀ i ∈ ([.txAckTmo, .txStep] : List Instr), ∃ ses acc free,
      exec i s = .next { s with
        ses := ses, acc := acc, free := free
        inbound := s.inbound.drop s.ans.deliver
        history := s.history ++ [.rxPoll 1 (s.inbound.take s.ans.deliver), .now s.ans.now]
        res := some .errAckTimeout } ∧
      ses.node = .idle

/-! ## Integrity module -/

/-- R181, R183: the micro-operations complete in every state and change the accumulator alone; in the
sum's pair the upper byte stays. -/
def Obligations.MicroOperationsActOnAccumulator : Prop :=
  ∀ (s : State) (b : Byte),
    (∃ a : Acc, exec .sum8Clear s = .next { s with acc := a } ∧
      a.toNat % 256 = 0 ∧ a.toNat / 256 = s.acc.toNat / 256) ∧
    (∃ a : Acc, exec (.sum8Absorb b) s = .next { s with acc := a } ∧
      a.toNat % 256 = (s.acc.toNat + b.toNat) % 256 ∧ a.toNat / 256 = s.acc.toNat / 256) ∧
    exec .crc16Clear s = .next { s with acc := s.par.crcInit } ∧ params.crcInit = 0x0000#16 ∧
    (∃ a₁ a₂ : Acc, exec (.crc16Absorb b) s = .next { s with acc := a₂ } ∧
      a₁ = (s.acc <<< 4) ^^^ s.par.crcTable[(s.acc.extractLsb' 12 4 ^^^ b.extractLsb' 4 4).toNat] ∧
      a₂ = (a₁ <<< 4) ^^^ s.par.crcTable[(a₁.extractLsb' 12 4 ^^^ b.extractLsb' 0 4).toNat])

/-- R182, R184: each table entry is the polynomial times its index; clear, absorb in order, no final
exclusive-or; with the values the rule names. -/
def Obligations.CrcIsFoldWithNamedValues : Prop :=
  (params.crcPoly = 0x1021#16 ∧ ∀ k (h : k < 16), (params.crcTable[k]'h).toNat = k * params.crcPoly.toNat) ∧
  crc16 params [] = 0x0000#16 ∧
  (∀ (d : List Byte) (b : Byte), crc16 params (d ++ [b]) = crc16AbsorbAcc params (crc16 params d) b) ∧
  crc16 params [0x31#8, 0x32#8, 0x33#8, 0x34#8, 0x35#8, 0x36#8, 0x37#8, 0x38#8, 0x39#8] = 0x31C3#16 ∧
  (∀ n : Nat, crc16 params (List.replicate n 0x00#8) = 0x0000#16) ∧
  crc16 params [0x01#8] = 0x1021#16 ∧ crc16 params [0xFF#8] = 0x1EF0#16 ∧
  crc16 params (List.replicate 128 0x1A#8) = 0xF8B0#16 ∧
  crc16 params (List.replicate 1024 0x1A#8) = 0xFC96#16 ∧
  crc16 params ([0x41#8, 0x42#8, 0x43#8] ++ List.replicate 125 0x1A#8) = 0x414B#16

/-- R181: the checksum is the sum of the payload bytes modulo 256, in whatever order they come. -/
def Obligations.ChecksumIsSumModulo256 : Prop :=
  (∀ d : List Byte, (sum8 d).toNat = (d.map BitVec.toNat).sum % 256) ∧
  (∀ d e : List Byte, d.Perm e → sum8 d = sum8 e)

/-- R188: the nibble form and the bit-serial form give the same CRC of every byte sequence. The
spec has this from general knowledge (G5), as it has the CRC's parameters (PRESUMED, log 25). -/
def Obligations.NibbleCrcEqualsBitSerial : Prop :=
  ∀ d : List Byte, crc16 params d = crcSerial params d

/-- R189: the CRC over payload and received CRC bytes together is zero exactly when the received
bytes are the payload's CRC, high byte first. The spec has this from general knowledge (G5; PRESUMED,
log 25). -/
def Obligations.CrcResidueIsZero : Prop :=
  ∀ (d : List Byte) (hi lo : Byte),
    crc16 params (d ++ [hi, lo]) = 0x0000#16 ↔ [hi, lo] = integrityBytes params .crc d

/-- R190: one flipped bit of the payload changes the checksum and the CRC, so that the integrity
field of either mode no longer fits. For the CRC the spec has this from general knowledge (G5; PRESUMED,
log 25). -/
def Obligations.OneFlippedBitIsDetected : Prop :=
  ∀ (pre post : List Byte) (b : Byte) (k : Nat), k < 8 → ∀ m : Mode,
    integrityBytes params m (pre ++ (b ^^^ BitVec.twoPow 8 k) :: post) ≠ integrityBytes params m (pre ++ b :: post)

/-! ## Both sides together, and the whole machine -/

/-- What one engine sends another accepts: a receiver that expects the sender's next packet, has taken
the marker of the frame the sender emits and is handed the rest of it, writes the sender's source
bytes, as many as its own total still asks for, to its own store (the packet step of the round-trip
property T1 of 95_test_vectors.md, from R71 to R77, R136 and R158). -/
def Obligations.EmittedFrameIsAccepted : Prop :=
  ∀ (tx rx tx' : State) (frame rest : List Byte),
    tx.ses.node = .txSendPacket → exec .txStep tx = .next tx' →
    tx'.history = tx.history ++ [.memRead tx.storeAddr (tx.chunk tx.cfg.pktHint) tx.ans.stored,
      .txEmit frame, .now tx.ans.now] →
    rx.par = tx.par → rx.ses.node = .rxAwaitBody → rx.ses.mode = tx.ses.mode → rx.ses.seqLast = tx.ses.seqLast →
    frame.head? = some rx.ses.buf[0] → rx.ses.rxCount = 0#11 →
    rx.inbound = frame.tail ++ rest → rx.ans.deliver = frame.length - 1 →
    (rx.cfg.hAvail = true → frame.length - 1 ≤ rx.ans.avail) →
    rx.ses.xferred.toNat < rx.cfg.total.toNat →
    rx.cfg.total.toNat - rx.ses.xferred.toNat = tx.cfg.total.toNat - tx.ses.xferred.toNat →
    rx.ans.stored = tx.ans.stored →
    ∃ rx', exec .rxStep rx = .next rx' ∧ rx'.ses.node = .rxAwaitHeader ∧ rx'.res = some .cont ∧
      rx'.inbound = rest ∧ rx'.ses.seqLast = nextSeq tx.par tx.ses.seqLast ∧
      rx'.ses.xferred = rx.ses.xferred + BitVec.ofNat 32 tx.ans.stored ∧
      ∀ j < tx.ans.stored,
        rx'.store.read? (rx.storeAddr + BitVec.ofNat 32 j).toNat
          = some (tx.store.byteAt (tx.storeAddr + BitVec.ofNat 32 j))

/-- The invariant of Safety.lean (R32 and what the registers' rules add) holds right after reset. -/
def Obligations.InvariantAtReset : Prop :=
  Inv State.reset

/-- The invariant is kept by every step, from every state that has it, under every choice of the
parameters (R7), which no step changes (log 14). -/
def Obligations.InvariantKeptByStep : Prop :=
  ∀ s t : State, Inv s → step s = .next t → Inv t ∧ t.par = s.par

/-- U5, R16, R22: a read of a register no session wrote is a fault, by name, and from a state with the
invariant no step faults. -/
def Obligations.FaultsOnlyOnUnwrittenRegisters : Prop :=
  (∀ s : State, s.ses.node = .rxAwaitBody → s.ses.buf[0] ≠ 0x01#8 → s.ses.buf[0] ≠ 0x02#8 →
    exec .rxStep s = .fault .markerUnspecified ∧
    ∀ a : RxArm, exec a.instr s = .fault .markerUnspecified) ∧
  (∀ s : State, s.ses.node = .txSendPacket → s.cfg.pktHint ≠ 128 → s.cfg.pktHint ≠ 1024 →
    exec .txStep s = .fault .hintUnspecified ∧
    ∀ a : TxArm, exec a.instr s = .fault .hintUnspecified) ∧
  (∀ s : State, Inv s → ∀ f : Fault, step s ≠ .fault f)

/-- R28: the configuration is written as a whole by an accepted init and by no other instruction. -/
def Obligations.ConfigurationFrozen : Prop :=
  ∀ (i : Instr) (s t : State), exec i s = .next t → t.cfg ≠ s.cfg →
    s.ses.node = .idle ∧ t.res = some .cont ∧ ∃ c, t.cfg = c ∧ (i = .rxInit c ∨ i = .txInit c)

/-- R14: which instructions restamp the clock of a session that goes on. -/
def Obligations.ClockStampWriters : Prop :=
  ∀ (i : Instr) (s t : State), exec i s = .next t → t.ses.node ≠ .idle → t.ses.tLast ≠ s.ses.tLast →
    t.ses.tLast = s.ans.now ∧
    ((∃ c, i = .rxInit c) ∨ (∃ c, i = .txInit c) ∨
      (i = .rxStep ∧ ∃ a ∈ ([.start, .hdrSoh, .hdrStx, .bodyTmo, .bodyBadsum, .bodyAccept] : List RxArm),
        s.selectRx = .next a) ∨
      (i = .txStep ∧ ∃ a ∈ ([.startC, .startNak, .startTmoRetry, .sendFrame, .ackMore,
        .ackNak] : List TxArm), s.selectTx = .next a) ∨
      i ∈ ([.rxStart, .rxHdrSoh, .rxHdrStx, .rxBodyTmo, .rxBodyBadsum, .rxBodyAccept, .txStartC,
        .txStartNak, .txStartTmoRetry, .txSendFrame, .txAckMore, .txAckNak] : List Instr))

/-- R222: node before, node after, bytes emitted and result of every receive step. -/
def Obligations.ReceiveTransitionRelation : Prop :=
  ∀ s t : State, exec .rxStep s = .next t → ∃ e r, t.outbound = s.outbound ++ e ∧ t.res = some r ∧
    (s.ses.node, t.ses.node, e, r) ∈ ([
      (.idle, .idle, [], .errIdle),
      (.rxStartWait, .rxAwaitHeader, [0x43#8], .cont), (.rxStartWait, .rxAwaitHeader, [0x15#8], .cont),
      (.rxAwaitHeader, .rxAwaitBody, [], .cont),
      (.rxAwaitHeader, .idle, [0x06#8], .success), (.rxAwaitHeader, .idle, [0x06#8], .errEarlyEot),
      (.rxAwaitHeader, .idle, [], .errPeerCancel), (.rxAwaitHeader, .rxAwaitHeader, [], .cont),
      (.rxAwaitHeader, .rxStartWait, [], .cont), (.rxAwaitHeader, .idle, [], .errStartTimeout),
      (.rxAwaitHeader, .idle, [], .errHeaderTimeout),
      (.rxAwaitBody, .rxAwaitBody, [], .cont), (.rxAwaitBody, .rxAwaitHeader, [0x15#8], .cont),
      (.rxAwaitBody, .idle, [0x18#8], .errMismatch), (.rxAwaitBody, .idle, [0x18#8], .success),
      (.rxAwaitBody, .idle, [0x18#8], .errStore), (.rxAwaitBody, .rxAwaitHeader, [0x06#8], .cont)
      ] : List (Node × Node × List Byte × Result))

/-- R222: node before, node after, bytes emitted and result of every transmit step; what a frame is
made of is `SendEmitsFrame`. -/
def Obligations.TransmitTransitionRelation : Prop :=
  ∀ s t : State, exec .txStep s = .next t → ∃ e r, t.outbound = s.outbound ++ e ∧ t.res = some r ∧
    ((s.ses.node, t.ses.node, e, r) ∈ ([
      (.idle, .idle, [], .errIdle),
      (.txAwaitStart, .txSendPacket, [], .cont), (.txAwaitStart, .idle, [], .errPeerCancel),
      (.txAwaitStart, .txAwaitStart, [], .cont), (.txAwaitStart, .idle, [], .errStartTimeout),
      (.txSendPacket, .idle, [0x04#8], .success), (.txSendPacket, .idle, [0x18#8], .errStore),
      (.txAwaitAck, .idle, [0x04#8], .success), (.txAwaitAck, .txSendPacket, [], .cont),
      (.txAwaitAck, .idle, [], .errPeerCancel), (.txAwaitAck, .txAwaitAck, [], .cont),
      (.txAwaitAck, .idle, [], .errAckTimeout)] : List (Node × Node × List Byte × Result)) ∨
    s.ses.node = .txSendPacket ∧ t.ses.node = .txAwaitAck ∧ r = .cont ∧
      e.length = flen s.cfg.pktHint s.ses.mode)

/-- R54: the collaborator calls of one instruction: at most one of each kind; `RxAvail` before
`RxPoll`, `RxPoll` before every other call, a store access before any `TxEmit`. -/
def Obligations.CallsInOrder : Prop :=
  ∀ (i : Instr) (s t : State), exec i s = .next t →
    ∃ avail poll store emit clock : List Event,
      (avail = [] ∨ ∃ a, avail = [.rxAvail a]) ∧
      (poll = [] ∨ ∃ n bs, poll = [.rxPoll n bs]) ∧
      (store = [] ∨ (∃ a n r, store = [.memRead a n r]) ∨ ∃ a n bs r, store = [.memWrite a n bs r]) ∧
      (emit = [] ∨ ∃ bs, emit = [.txEmit bs]) ∧
      (clock = [] ∨ clock = [.now s.ans.now]) ∧
      (t.history = s.history ++ avail ++ poll ++ store ++ emit ++ clock ∨
        store = [] ∧ t.history = s.history ++ avail ++ poll ++ clock ++ emit)

/-- R56, R136: the `ACK` a packet gets follows a write of that step that returned its whole length. -/
def Obligations.WritePrecedesAck : Prop :=
  ∀ s t : State, s.ses.node = .rxAwaitBody → exec .rxStep s = .next t →
    t.outbound = s.outbound ++ [0x06#8] →
    ∃ (pre post : List Event) (n : Nat) (bs : List Byte),
      t.history = s.history ++ pre ++ [.memWrite s.storeAddr n bs n] ++ [.txEmit [0x06#8]] ++ post ∧
      1 ≤ n ∧ bs.length = n

/-- R139, R41, R60: an instruction changes the store only in a receive session's body step, and there
only between the running offset and the total. -/
def Obligations.StoreChangesInsideWindow : Prop :=
  ∀ (i : Instr) (s t : State) (x : Nat), Inv s → exec i s = .next t →
    t.store.read? x ≠ s.store.read? x →
    s.ses.node = .rxAwaitBody ∧ ∃ k, s.ses.xferred.toNat ≤ k ∧ k < s.cfg.total.toNat ∧
      x = (s.cfg.addr + BitVec.ofNat 32 k).toNat

/-- R44, R58, R78: bytes leave the inbound stream in order, one at most in a control-byte node and no
more than the frame needs in the body node, none anywhere else. -/
def Obligations.InboundConsumedInOrder : Prop :=
  ∀ (i : Instr) (s t : State), exec i s = .next t → ∃ k, t.inbound = s.inbound.drop k ∧
    (s.ses.node = .rxAwaitHeader ∨ s.ses.node = .txAwaitStart ∨ s.ses.node = .txAwaitAck → k ≤ 1) ∧
    (s.ses.node = .rxAwaitBody → k ≤ s.need) ∧
    (s.ses.node = .idle ∨ s.ses.node = .rxStartWait ∨ s.ses.node = .txSendPacket → k = 0)

/-- R201: success is reported only when the configured total has been delivered, or acknowledged up
to and with the packet the peer has just acknowledged. -/
def Obligations.SuccessMeansTotalReached : Prop :=
  ∀ s t : State, Inv s →
    (exec .rxStep s = .next t → t.res = some .success → s.ses.xferred = s.cfg.total) ∧
    (exec .txStep s = .next t → t.res = some .success →
      s.ses.node = .txAwaitAck ∧ s.cfg.total.toNat - s.ses.xferred.toNat ≤ s.cfg.pktHint ∨
      s.ses.node = .txSendPacket ∧ s.cfg.total = 0#32)

/-- R31, R106, R107: a step leaves the engine in `Idle` exactly when what it returns is terminal, and
under a numbering as the spec asks for that is a non-zero number at the result port. -/
def Obligations.TerminalExactlyWhenIdle : Prop :=
  ∀ (i : Instr) (s t : State), (i = .rxStep ∨ i = .txStep) → exec i s = .next t →
    ∃ r, t.res = some r ∧ (r ≠ .cont ↔ t.ses.node = .idle) ∧
      (resultCodesLegal s.par.resultCodes = true →
        ∃ n, t.resCode = some n ∧ (n ≠ 0 ↔ t.ses.node = .idle))

/-- R239: a packet sent again after it was accepted is a mismatch, under either reading of the wrap. -/
def Obligations.DuplicatePacketIsMismatch : Prop :=
  ∀ s : State, s.par.seqWrapTo = 0#8 ∨ s.par.seqWrapTo = 1#8 → s.BodyStep →
    s.bodyLength ≤ s.accumulate.ses.rxCount.toNat → s.accumulate.ses.buf[1] = s.ses.seqLast →
    ∃ t, exec .rxStep s = .next t ∧ t.res = some .errMismatch ∧ t.ses.node = .idle ∧
      t.outbound = s.outbound ++ [0x18#8] ∧ t.store = s.store
end

