-- ==== Sys2Proof/Laws/Buffer.lean ====
section
/-! SUPPORT. The packet buffer: what filling a run of it does to every byte, and slices of it. -/

namespace Sys2Proof.Machine

@[simp] theorem fill_toList (b : Buf) (start : Nat) (bs : List Byte) :
    (fill b start bs).toList
      = (b.toList.take start ++ bs ++ b.toList.drop (start + bs.length)).take 1029 := by
  simp [fill, Vector.toList]

/-- Filling a run writes its bytes and leaves every other byte. -/
theorem getElem_fill (b : Buf) (start : Nat) (bs : List Byte) (i : Nat) (hi : i < 1029) :
    (fill b start bs)[i]
      = if h : start ≤ i ∧ i < start + bs.length then bs[i - start]'(by omega) else b[i] := by
  rw [← Vector.getElem_toList (by simp; omega)]
  simp only [fill_toList, List.getElem_take]
  have hl : b.toList.length = 1029 := by simp
  by_cases h1 : i < start
  · rw [dif_neg (by omega), List.getElem_append_left (by simp; omega),
      List.getElem_append_left (by simp; omega), List.getElem_take, Vector.getElem_toList]
  · have hs : (b.toList.take start).length = start := by simp; omega
    by_cases h2 : i < start + bs.length
    · rw [dif_pos ⟨by omega, h2⟩, List.getElem_append_left (by simp; omega),
        List.getElem_append_right (by omega)]
      simp [hs]
    · rw [dif_neg (by omega), List.getElem_append_right (by simp; omega), List.getElem_drop,
        Vector.getElem_toList]
      congr 1
      simp; omega

@[simp] theorem fill_nil (b : Buf) (start : Nat) : fill b start [] = b := by
  ext1 i hi
  rw [getElem_fill, dif_neg (by simp)]

/-- Two runs end to end are one run. -/
theorem fill_append (b : Buf) (start : Nat) (xs ys : List Byte) :
    fill (fill b start xs) (start + xs.length) ys = fill b start (xs ++ ys) := by
  ext1 i hi
  simp only [getElem_fill, List.length_append]
  by_cases h1 : start ≤ i ∧ i < start + xs.length
  · rw [dif_neg (by omega), dif_pos h1, dif_pos (by omega), List.getElem_append_left]
  · by_cases h2 : start + xs.length ≤ i ∧ i < start + xs.length + ys.length
    · rw [dif_pos h2, dif_pos (by omega), List.getElem_append_right (by omega)]
      congr 1; omega
    · rw [dif_neg h2, dif_neg h1, dif_neg (by omega)]

@[simp] theorem length_slice (b : Buf) (start n : Nat) :
    (slice b start n).length = min n (1029 - start) := by simp [slice]

theorem getElem_slice (b : Buf) (start n i : Nat) (h : i < (slice b start n).length) :
    (slice b start n)[i] = b[start + i]'(by simp at h; omega) := by
  simp [slice]

@[simp] theorem length_padTo (size : Nat) (d : List Byte) :
    (padTo size d).length = max d.length size := by simp [padTo]; omega

@[simp] theorem length_integrityBytes (p : Config.Params) (m : Mode) (d : List Byte) :
    (integrityBytes p m d).length = ilen m := by cases m <;> rfl

/-- R72: a frame has `FLEN` bytes. -/
theorem length_buildFrame (p : Config.Params) (marker seq : Byte) (m : Mode) (d : List Byte) :
    (buildFrame p marker seq m d).length = flen d.length m := by
  simp [buildFrame, flen]; omega

@[simp] theorem psize_soh : psize 0x01#8 = some 128 := rfl
@[simp] theorem psize_stx : psize 0x02#8 = some 1024 := rfl

end Sys2Proof.Machine
end

