-- ==== Sys2Proof/Laws/Crc.lean ====
section
/-! SUPPORT. The CRC operations are linear: each step of an exclusive-or is the exclusive-or of the steps. -/

namespace Sys2Proof.Machine

/-- The table is linear (R182). -/
theorem crcTable_xor (x y : BitVec 4) :
    params.crcTable[(x ^^^ y).toNat] = params.crcTable[x.toNat] ^^^ params.crcTable[y.toNat] := by
  revert x y; decide +kernel

/-- Two exclusive-ors, their middle terms changing places. -/
theorem xor_middle {w : Nat} (a b c d : BitVec w) : (a ^^^ b) ^^^ (c ^^^ d) = (a ^^^ c) ^^^ (b ^^^ d) := by
  rw [BitVec.xor_assoc, ← BitVec.xor_assoc b, BitVec.xor_comm b, BitVec.xor_assoc, ← BitVec.xor_assoc]

theorem extractLsb'_xor_acc (a b : Acc) : (a ^^^ b).extractLsb' 12 4 = a.extractLsb' 12 4 ^^^ b.extractLsb' 12 4 := by
  ext i hi; simp

theorem extractLsb'_xor_byte (x y : Byte) (k : Nat) :
    (x ^^^ y).extractLsb' k 4 = x.extractLsb' k 4 ^^^ y.extractLsb' k 4 := by
  ext i hi; simp

/-- One nibble step. -/
theorem crcNibble_xor (a b : Acc) (m n : BitVec 4) :
    crcNibble params (a ^^^ b) (m ^^^ n) = crcNibble params a m ^^^ crcNibble params b n := by
  have e : (a ^^^ b).extractLsb' 12 4 ^^^ (m ^^^ n)
      = (a.extractLsb' 12 4 ^^^ m) ^^^ (b.extractLsb' 12 4 ^^^ n) := by
    rw [extractLsb'_xor_acc, xor_middle]
  unfold crcNibble
  rw [BitVec.shiftLeft_xor_distrib, xor_middle, ← crcTable_xor]
  simp only [e]

/-- One byte absorbed (R183). -/
theorem crc16AbsorbAcc_xor (a b : Acc) (x y : Byte) :
    crc16AbsorbAcc params (a ^^^ b) (x ^^^ y) = crc16AbsorbAcc params a x ^^^ crc16AbsorbAcc params b y := by
  rw [crc16AbsorbAcc, extractLsb'_xor_byte, extractLsb'_xor_byte, crcNibble_xor, crcNibble_xor]; rfl

/-- One bit of the bit-serial form. -/
theorem crcBit_xor (a b : Acc) : crcBit params (a ^^^ b) = crcBit params a ^^^ crcBit params b := by
  unfold crcBit
  rw [BitVec.getLsbD_xor]
  cases a.getLsbD 15 <;> cases b.getLsbD 15 <;> simp [BitVec.shiftLeft_xor_distrib]
  · rw [BitVec.xor_assoc]
  · rw [BitVec.xor_assoc, BitVec.xor_comm (b <<< 1), BitVec.xor_assoc]
  · rw [BitVec.xor_assoc, ← BitVec.xor_assoc params.crcPoly, BitVec.xor_comm params.crcPoly,
      BitVec.xor_assoc (b <<< 1), BitVec.xor_self, BitVec.xor_zero]

/-- One byte of the bit-serial form (R188). -/
theorem crcSerialByte_xor (a b : Acc) (x y : Byte) :
    crcSerialByte params (a ^^^ b) (x ^^^ y) = crcSerialByte params a x ^^^ crcSerialByte params b y := by
  have e : (a ^^^ b) ^^^ ((x ^^^ y).setWidth 16 <<< 8)
      = (a ^^^ (x.setWidth 16 <<< 8)) ^^^ (b ^^^ (y.setWidth 16 <<< 8)) := by
    rw [BitVec.setWidth_xor, BitVec.shiftLeft_xor_distrib, xor_middle]
  simp only [crcSerialByte, e, show List.range 8 = [0, 1, 2, 3, 4, 5, 6, 7] from rfl, List.foldl_cons,
    List.foldl_nil, crcBit_xor]

end Sys2Proof.Machine
end

