-- ==== Sys2Proof/Laws/State.lean ====
section
/-! SUPPORT. One lemma per field per update of the state, so that no later proof unfolds a record update. -/

namespace Sys2Proof.Machine

namespace State

variable (s : State)

/-! ## `readClock` -/

@[simp] theorem readClock_cfg : (s.readClock).cfg = s.cfg := rfl
@[simp] theorem readClock_ses : (s.readClock).ses = s.ses := rfl
@[simp] theorem readClock_acc : (s.readClock).acc = s.acc := rfl
@[simp] theorem readClock_store : (s.readClock).store = s.store := rfl
@[simp] theorem readClock_inbound : (s.readClock).inbound = s.inbound := rfl
@[simp] theorem readClock_res : (s.readClock).res = s.res := rfl
@[simp] theorem readClock_history : (s.readClock).history = s.history ++ [.now s.ans.now] := rfl
@[simp] theorem readClock_ans : (s.readClock).ans = s.ans := rfl
@[simp] theorem readClock_inputs : (s.readClock).inputs = s.inputs := rfl
@[simp] theorem readClock_free : (s.readClock).free = s.free := rfl
@[simp] theorem readClock_par : (s.readClock).par = s.par := rfl

/-! ## `queryAvail` -/

@[simp] theorem queryAvail_cfg : (s.queryAvail).cfg = s.cfg := rfl
@[simp] theorem queryAvail_ses : (s.queryAvail).ses = s.ses := rfl
@[simp] theorem queryAvail_acc : (s.queryAvail).acc = s.acc := rfl
@[simp] theorem queryAvail_store : (s.queryAvail).store = s.store := rfl
@[simp] theorem queryAvail_inbound : (s.queryAvail).inbound = s.inbound := rfl
@[simp] theorem queryAvail_res : (s.queryAvail).res = s.res := rfl
@[simp] theorem queryAvail_history : (s.queryAvail).history = s.history ++ [.rxAvail s.ans.avail] := rfl
@[simp] theorem queryAvail_ans : (s.queryAvail).ans = s.ans := rfl
@[simp] theorem queryAvail_inputs : (s.queryAvail).inputs = s.inputs := rfl
@[simp] theorem queryAvail_free : (s.queryAvail).free = s.free := rfl
@[simp] theorem queryAvail_par : (s.queryAvail).par = s.par := rfl

/-! ## `poll` -/

@[simp] theorem poll_cfg (n : Nat) : (s.poll n).cfg = s.cfg := rfl
@[simp] theorem poll_ses (n : Nat) : (s.poll n).ses = s.ses := rfl
@[simp] theorem poll_acc (n : Nat) : (s.poll n).acc = s.acc := rfl
@[simp] theorem poll_store (n : Nat) : (s.poll n).store = s.store := rfl
@[simp] theorem poll_inbound (n : Nat) : (s.poll n).inbound = s.inbound.drop s.ans.deliver := rfl
@[simp] theorem poll_res (n : Nat) : (s.poll n).res = s.res := rfl
@[simp] theorem poll_history (n : Nat) : (s.poll n).history = s.history ++ [.rxPoll n s.polledBytes] := rfl
@[simp] theorem poll_ans (n : Nat) : (s.poll n).ans = s.ans := rfl
@[simp] theorem poll_inputs (n : Nat) : (s.poll n).inputs = s.inputs := rfl
@[simp] theorem poll_free (n : Nat) : (s.poll n).free = s.free := rfl
@[simp] theorem poll_par (n : Nat) : (s.poll n).par = s.par := rfl

/-! ## `emit` -/

@[simp] theorem emit_cfg (bytes : List Byte) : (s.emit bytes).cfg = s.cfg := rfl
@[simp] theorem emit_ses (bytes : List Byte) : (s.emit bytes).ses = s.ses := rfl
@[simp] theorem emit_acc (bytes : List Byte) : (s.emit bytes).acc = s.acc := rfl
@[simp] theorem emit_store (bytes : List Byte) : (s.emit bytes).store = s.store := rfl
@[simp] theorem emit_inbound (bytes : List Byte) : (s.emit bytes).inbound = s.inbound := rfl
@[simp] theorem emit_res (bytes : List Byte) : (s.emit bytes).res = s.res := rfl
@[simp] theorem emit_history (bytes : List Byte) : (s.emit bytes).history = s.history ++ [.txEmit bytes] := rfl
@[simp] theorem emit_ans (bytes : List Byte) : (s.emit bytes).ans = s.ans := rfl
@[simp] theorem emit_inputs (bytes : List Byte) : (s.emit bytes).inputs = s.inputs := rfl
@[simp] theorem emit_free (bytes : List Byte) : (s.emit bytes).free = s.free := rfl
@[simp] theorem emit_par (bytes : List Byte) : (s.emit bytes).par = s.par := rfl

/-! ## `readStore` -/

@[simp] theorem readStore_cfg (n : Nat) : (s.readStore n).cfg = s.cfg := rfl
@[simp] theorem readStore_ses (n : Nat) : (s.readStore n).ses = s.ses := rfl
@[simp] theorem readStore_acc (n : Nat) : (s.readStore n).acc = s.acc := rfl
@[simp] theorem readStore_store (n : Nat) : (s.readStore n).store = s.store := rfl
@[simp] theorem readStore_inbound (n : Nat) : (s.readStore n).inbound = s.inbound := rfl
@[simp] theorem readStore_res (n : Nat) : (s.readStore n).res = s.res := rfl
@[simp] theorem readStore_history (n : Nat) : (s.readStore n).history = s.history ++ [.memRead s.storeAddr n s.ans.stored] := rfl
@[simp] theorem readStore_ans (n : Nat) : (s.readStore n).ans = s.ans := rfl
@[simp] theorem readStore_inputs (n : Nat) : (s.readStore n).inputs = s.inputs := rfl
@[simp] theorem readStore_free (n : Nat) : (s.readStore n).free = s.free := rfl
@[simp] theorem readStore_par (n : Nat) : (s.readStore n).par = s.par := rfl

/-! ## `writeStore` -/

@[simp] theorem writeStore_cfg (bytes : List Byte) : (s.writeStore bytes).cfg = s.cfg := rfl
@[simp] theorem writeStore_ses (bytes : List Byte) : (s.writeStore bytes).ses = s.ses := rfl
@[simp] theorem writeStore_acc (bytes : List Byte) : (s.writeStore bytes).acc = s.acc := rfl
@[simp] theorem writeStore_store (bytes : List Byte) : (s.writeStore bytes).store = s.store.writeBytes s.storeAddr bytes := rfl
@[simp] theorem writeStore_inbound (bytes : List Byte) : (s.writeStore bytes).inbound = s.inbound := rfl
@[simp] theorem writeStore_res (bytes : List Byte) : (s.writeStore bytes).res = s.res := rfl
@[simp] theorem writeStore_history (bytes : List Byte) : (s.writeStore bytes).history = s.history ++ [.memWrite s.storeAddr bytes.length bytes bytes.length] := rfl
@[simp] theorem writeStore_ans (bytes : List Byte) : (s.writeStore bytes).ans = s.ans := rfl
@[simp] theorem writeStore_inputs (bytes : List Byte) : (s.writeStore bytes).inputs = s.inputs := rfl
@[simp] theorem writeStore_free (bytes : List Byte) : (s.writeStore bytes).free = s.free := rfl
@[simp] theorem writeStore_par (bytes : List Byte) : (s.writeStore bytes).par = s.par := rfl

/-! ## `failStore` -/

@[simp] theorem failStore_cfg (bytes : List Byte) : (s.failStore bytes).cfg = s.cfg := rfl
@[simp] theorem failStore_ses (bytes : List Byte) : (s.failStore bytes).ses = s.ses := rfl
@[simp] theorem failStore_acc (bytes : List Byte) : (s.failStore bytes).acc = s.acc := rfl
@[simp] theorem failStore_store (bytes : List Byte) : (s.failStore bytes).store = s.store.writeBytes s.storeAddr ((List.range bytes.length).map (Config.freeStoreByte s.free)) := rfl
@[simp] theorem failStore_inbound (bytes : List Byte) : (s.failStore bytes).inbound = s.inbound := rfl
@[simp] theorem failStore_res (bytes : List Byte) : (s.failStore bytes).res = s.res := rfl
@[simp] theorem failStore_history (bytes : List Byte) : (s.failStore bytes).history = s.history ++ [.memWrite s.storeAddr bytes.length bytes 0] := rfl
@[simp] theorem failStore_ans (bytes : List Byte) : (s.failStore bytes).ans = s.ans := rfl
@[simp] theorem failStore_inputs (bytes : List Byte) : (s.failStore bytes).inputs = s.inputs := rfl
@[simp] theorem failStore_free (bytes : List Byte) : (s.failStore bytes).free = s.free + 1 := rfl
@[simp] theorem failStore_par (bytes : List Byte) : (s.failStore bytes).par = s.par := rfl

/-! ## `setTLast` -/

@[simp] theorem setTLast_cfg (t : Word32) : (s.setTLast t).cfg = s.cfg := rfl
@[simp] theorem setTLast_ses (t : Word32) : (s.setTLast t).ses = { s.ses with tLast := t } := rfl
@[simp] theorem setTLast_acc (t : Word32) : (s.setTLast t).acc = s.acc := rfl
@[simp] theorem setTLast_store (t : Word32) : (s.setTLast t).store = s.store := rfl
@[simp] theorem setTLast_inbound (t : Word32) : (s.setTLast t).inbound = s.inbound := rfl
@[simp] theorem setTLast_res (t : Word32) : (s.setTLast t).res = s.res := rfl
@[simp] theorem setTLast_history (t : Word32) : (s.setTLast t).history = s.history := rfl
@[simp] theorem setTLast_ans (t : Word32) : (s.setTLast t).ans = s.ans := rfl
@[simp] theorem setTLast_inputs (t : Word32) : (s.setTLast t).inputs = s.inputs := rfl
@[simp] theorem setTLast_free (t : Word32) : (s.setTLast t).free = s.free := rfl
@[simp] theorem setTLast_par (t : Word32) : (s.setTLast t).par = s.par := rfl

/-! ## `stamp` -/

@[simp] theorem stamp_cfg : (s.stamp).cfg = s.cfg := rfl
@[simp] theorem stamp_ses : (s.stamp).ses = { s.ses with tLast := s.ans.now } := rfl
@[simp] theorem stamp_acc : (s.stamp).acc = s.acc := rfl
@[simp] theorem stamp_store : (s.stamp).store = s.store := rfl
@[simp] theorem stamp_inbound : (s.stamp).inbound = s.inbound := rfl
@[simp] theorem stamp_res : (s.stamp).res = s.res := rfl
@[simp] theorem stamp_history : (s.stamp).history = s.history ++ [.now s.ans.now] := rfl
@[simp] theorem stamp_ans : (s.stamp).ans = s.ans := rfl
@[simp] theorem stamp_inputs : (s.stamp).inputs = s.inputs := rfl
@[simp] theorem stamp_free : (s.stamp).free = s.free := rfl
@[simp] theorem stamp_par : (s.stamp).par = s.par := rfl

/-! ## `goto` -/

@[simp] theorem goto_cfg (n : Node) : (s.goto n).cfg = s.cfg := rfl
@[simp] theorem goto_ses (n : Node) : (s.goto n).ses = { s.ses with node := n } := rfl
@[simp] theorem goto_acc (n : Node) : (s.goto n).acc = s.acc := rfl
@[simp] theorem goto_store (n : Node) : (s.goto n).store = s.store := rfl
@[simp] theorem goto_inbound (n : Node) : (s.goto n).inbound = s.inbound := rfl
@[simp] theorem goto_res (n : Node) : (s.goto n).res = s.res := rfl
@[simp] theorem goto_history (n : Node) : (s.goto n).history = s.history := rfl
@[simp] theorem goto_ans (n : Node) : (s.goto n).ans = s.ans := rfl
@[simp] theorem goto_inputs (n : Node) : (s.goto n).inputs = s.inputs := rfl
@[simp] theorem goto_free (n : Node) : (s.goto n).free = s.free := rfl
@[simp] theorem goto_par (n : Node) : (s.goto n).par = s.par := rfl

/-! ## `countStart` -/

@[simp] theorem countStart_cfg : (s.countStart).cfg = s.cfg := rfl
@[simp] theorem countStart_ses : (s.countStart).ses = { s.ses with starts := s.ses.starts + 1#32 } := rfl
@[simp] theorem countStart_acc : (s.countStart).acc = s.acc := rfl
@[simp] theorem countStart_store : (s.countStart).store = s.store := rfl
@[simp] theorem countStart_inbound : (s.countStart).inbound = s.inbound := rfl
@[simp] theorem countStart_res : (s.countStart).res = s.res := rfl
@[simp] theorem countStart_history : (s.countStart).history = s.history := rfl
@[simp] theorem countStart_ans : (s.countStart).ans = s.ans := rfl
@[simp] theorem countStart_inputs : (s.countStart).inputs = s.inputs := rfl
@[simp] theorem countStart_free : (s.countStart).free = s.free := rfl
@[simp] theorem countStart_par : (s.countStart).par = s.par := rfl

/-! ## `setMode` -/

@[simp] theorem setMode_cfg (m : Mode) : (s.setMode m).cfg = s.cfg := rfl
@[simp] theorem setMode_ses (m : Mode) : (s.setMode m).ses = { s.ses with mode := m } := rfl
@[simp] theorem setMode_acc (m : Mode) : (s.setMode m).acc = s.acc := rfl
@[simp] theorem setMode_store (m : Mode) : (s.setMode m).store = s.store := rfl
@[simp] theorem setMode_inbound (m : Mode) : (s.setMode m).inbound = s.inbound := rfl
@[simp] theorem setMode_res (m : Mode) : (s.setMode m).res = s.res := rfl
@[simp] theorem setMode_history (m : Mode) : (s.setMode m).history = s.history := rfl
@[simp] theorem setMode_ans (m : Mode) : (s.setMode m).ans = s.ans := rfl
@[simp] theorem setMode_inputs (m : Mode) : (s.setMode m).inputs = s.inputs := rfl
@[simp] theorem setMode_free (m : Mode) : (s.setMode m).free = s.free := rfl
@[simp] theorem setMode_par (m : Mode) : (s.setMode m).par = s.par := rfl

/-! ## `openFrame` -/

@[simp] theorem openFrame_cfg (b : Byte) : (s.openFrame b).cfg = s.cfg := rfl
@[simp] theorem openFrame_ses (b : Byte) : (s.openFrame b).ses = { s.ses with buf := fill s.ses.buf 0 [b], rxCount := 0#11, hdrSeen := true } := rfl
@[simp] theorem openFrame_acc (b : Byte) : (s.openFrame b).acc = s.acc := rfl
@[simp] theorem openFrame_store (b : Byte) : (s.openFrame b).store = s.store := rfl
@[simp] theorem openFrame_inbound (b : Byte) : (s.openFrame b).inbound = s.inbound := rfl
@[simp] theorem openFrame_res (b : Byte) : (s.openFrame b).res = s.res := rfl
@[simp] theorem openFrame_history (b : Byte) : (s.openFrame b).history = s.history := rfl
@[simp] theorem openFrame_ans (b : Byte) : (s.openFrame b).ans = s.ans := rfl
@[simp] theorem openFrame_inputs (b : Byte) : (s.openFrame b).inputs = s.inputs := rfl
@[simp] theorem openFrame_free (b : Byte) : (s.openFrame b).free = s.free := rfl
@[simp] theorem openFrame_par (b : Byte) : (s.openFrame b).par = s.par := rfl

/-! ## `advance` -/

@[simp] theorem advance_cfg (n : Nat) (q : Byte) : (s.advance n q).cfg = s.cfg := rfl
@[simp] theorem advance_ses (n : Nat) (q : Byte) : (s.advance n q).ses = { s.ses with xferred := s.ses.xferred + BitVec.ofNat 32 n, seqLast := q } := rfl
@[simp] theorem advance_acc (n : Nat) (q : Byte) : (s.advance n q).acc = s.acc := rfl
@[simp] theorem advance_store (n : Nat) (q : Byte) : (s.advance n q).store = s.store := rfl
@[simp] theorem advance_inbound (n : Nat) (q : Byte) : (s.advance n q).inbound = s.inbound := rfl
@[simp] theorem advance_res (n : Nat) (q : Byte) : (s.advance n q).res = s.res := rfl
@[simp] theorem advance_history (n : Nat) (q : Byte) : (s.advance n q).history = s.history := rfl
@[simp] theorem advance_ans (n : Nat) (q : Byte) : (s.advance n q).ans = s.ans := rfl
@[simp] theorem advance_inputs (n : Nat) (q : Byte) : (s.advance n q).inputs = s.inputs := rfl
@[simp] theorem advance_free (n : Nat) (q : Byte) : (s.advance n q).free = s.free := rfl
@[simp] theorem advance_par (n : Nat) (q : Byte) : (s.advance n q).par = s.par := rfl

/-! ## `loadFrame` -/

@[simp] theorem loadFrame_cfg (f : List Byte) : (s.loadFrame f).cfg = s.cfg := rfl
@[simp] theorem loadFrame_ses (f : List Byte) : (s.loadFrame f).ses = { s.ses with buf := fill s.ses.buf 0 f } := rfl
@[simp] theorem loadFrame_acc (f : List Byte) : (s.loadFrame f).acc = s.acc := rfl
@[simp] theorem loadFrame_store (f : List Byte) : (s.loadFrame f).store = s.store := rfl
@[simp] theorem loadFrame_inbound (f : List Byte) : (s.loadFrame f).inbound = s.inbound := rfl
@[simp] theorem loadFrame_res (f : List Byte) : (s.loadFrame f).res = s.res := rfl
@[simp] theorem loadFrame_history (f : List Byte) : (s.loadFrame f).history = s.history := rfl
@[simp] theorem loadFrame_ans (f : List Byte) : (s.loadFrame f).ans = s.ans := rfl
@[simp] theorem loadFrame_inputs (f : List Byte) : (s.loadFrame f).inputs = s.inputs := rfl
@[simp] theorem loadFrame_free (f : List Byte) : (s.loadFrame f).free = s.free := rfl
@[simp] theorem loadFrame_par (f : List Byte) : (s.loadFrame f).par = s.par := rfl

/-! ## `retireAcc` -/

@[simp] theorem retireAcc_cfg : (s.retireAcc).cfg = s.cfg := rfl
@[simp] theorem retireAcc_ses : (s.retireAcc).ses = s.ses := rfl
@[simp] theorem retireAcc_acc : (s.retireAcc).acc = Config.freeAcc s.free := rfl
@[simp] theorem retireAcc_store : (s.retireAcc).store = s.store := rfl
@[simp] theorem retireAcc_inbound : (s.retireAcc).inbound = s.inbound := rfl
@[simp] theorem retireAcc_res : (s.retireAcc).res = s.res := rfl
@[simp] theorem retireAcc_history : (s.retireAcc).history = s.history := rfl
@[simp] theorem retireAcc_ans : (s.retireAcc).ans = s.ans := rfl
@[simp] theorem retireAcc_inputs : (s.retireAcc).inputs = s.inputs := rfl
@[simp] theorem retireAcc_free : (s.retireAcc).free = s.free + 1 := rfl
@[simp] theorem retireAcc_par : (s.retireAcc).par = s.par := rfl

/-! ## `setAcc` -/

@[simp] theorem setAcc_cfg (a : Acc) : (s.setAcc a).cfg = s.cfg := rfl
@[simp] theorem setAcc_ses (a : Acc) : (s.setAcc a).ses = s.ses := rfl
@[simp] theorem setAcc_acc (a : Acc) : (s.setAcc a).acc = a := rfl
@[simp] theorem setAcc_store (a : Acc) : (s.setAcc a).store = s.store := rfl
@[simp] theorem setAcc_inbound (a : Acc) : (s.setAcc a).inbound = s.inbound := rfl
@[simp] theorem setAcc_res (a : Acc) : (s.setAcc a).res = s.res := rfl
@[simp] theorem setAcc_history (a : Acc) : (s.setAcc a).history = s.history := rfl
@[simp] theorem setAcc_ans (a : Acc) : (s.setAcc a).ans = s.ans := rfl
@[simp] theorem setAcc_inputs (a : Acc) : (s.setAcc a).inputs = s.inputs := rfl
@[simp] theorem setAcc_free (a : Acc) : (s.setAcc a).free = s.free := rfl
@[simp] theorem setAcc_par (a : Acc) : (s.setAcc a).par = s.par := rfl

/-! ## `answer` -/

@[simp] theorem answer_cfg (r : Result) : (s.answer r).cfg = s.cfg := rfl
@[simp] theorem answer_ses (r : Result) : (s.answer r).ses = s.ses := rfl
@[simp] theorem answer_acc (r : Result) : (s.answer r).acc = Config.freeAcc s.free := rfl
@[simp] theorem answer_store (r : Result) : (s.answer r).store = s.store := rfl
@[simp] theorem answer_inbound (r : Result) : (s.answer r).inbound = s.inbound := rfl
@[simp] theorem answer_res (r : Result) : (s.answer r).res = some r := rfl
@[simp] theorem answer_history (r : Result) : (s.answer r).history = s.history := rfl
@[simp] theorem answer_ans (r : Result) : (s.answer r).ans = s.ans := rfl
@[simp] theorem answer_inputs (r : Result) : (s.answer r).inputs = s.inputs := rfl
@[simp] theorem answer_free (r : Result) : (s.answer r).free = s.free + 1 := rfl
@[simp] theorem answer_par (r : Result) : (s.answer r).par = s.par := rfl

/-! ## `terminal` -/

@[simp] theorem terminal_cfg (r : Result) : (s.terminal r).cfg = s.cfg := rfl
@[simp] theorem terminal_ses (r : Result) : (s.terminal r).ses = freeSession s.free := rfl
@[simp] theorem terminal_acc (r : Result) : (s.terminal r).acc = Config.freeAcc s.free := rfl
@[simp] theorem terminal_store (r : Result) : (s.terminal r).store = s.store := rfl
@[simp] theorem terminal_inbound (r : Result) : (s.terminal r).inbound = s.inbound := rfl
@[simp] theorem terminal_res (r : Result) : (s.terminal r).res = some r := rfl
@[simp] theorem terminal_history (r : Result) : (s.terminal r).history = s.history := rfl
@[simp] theorem terminal_ans (r : Result) : (s.terminal r).ans = s.ans := rfl
@[simp] theorem terminal_inputs (r : Result) : (s.terminal r).inputs = s.inputs := rfl
@[simp] theorem terminal_free (r : Result) : (s.terminal r).free = s.free + 1 := rfl
@[simp] theorem terminal_par (r : Result) : (s.terminal r).par = s.par := rfl

/-! ## `takeBody` -/

@[simp] theorem takeBody_cfg (bytes : List Byte) : (s.takeBody bytes).cfg = s.cfg := rfl
@[simp] theorem takeBody_ses (bytes : List Byte) : (s.takeBody bytes).ses = { s.ses with buf := fill s.ses.buf (1 + s.ses.rxCount.toNat) bytes, rxCount := s.ses.rxCount + BitVec.ofNat 11 bytes.length } := rfl
@[simp] theorem takeBody_acc (bytes : List Byte) : (s.takeBody bytes).acc = s.acc := rfl
@[simp] theorem takeBody_store (bytes : List Byte) : (s.takeBody bytes).store = s.store := rfl
@[simp] theorem takeBody_inbound (bytes : List Byte) : (s.takeBody bytes).inbound = s.inbound := rfl
@[simp] theorem takeBody_res (bytes : List Byte) : (s.takeBody bytes).res = s.res := rfl
@[simp] theorem takeBody_history (bytes : List Byte) : (s.takeBody bytes).history = s.history := rfl
@[simp] theorem takeBody_ans (bytes : List Byte) : (s.takeBody bytes).ans = s.ans := rfl
@[simp] theorem takeBody_inputs (bytes : List Byte) : (s.takeBody bytes).inputs = s.inputs := rfl
@[simp] theorem takeBody_free (bytes : List Byte) : (s.takeBody bytes).free = s.free := rfl
@[simp] theorem takeBody_par (bytes : List Byte) : (s.takeBody bytes).par = s.par := rfl

/-! ## `accept` -/

@[simp] theorem accept_cfg (c : HostCall) : (s.accept c).cfg = s.cfg := rfl
@[simp] theorem accept_ses (c : HostCall) : (s.accept c).ses = s.ses := rfl
@[simp] theorem accept_acc (c : HostCall) : (s.accept c).acc = s.acc := rfl
@[simp] theorem accept_store (c : HostCall) : (s.accept c).store = s.store.poke c.pokes := rfl
@[simp] theorem accept_inbound (c : HostCall) : (s.accept c).inbound = s.inbound ++ c.arrivals := rfl
@[simp] theorem accept_res (c : HostCall) : (s.accept c).res = s.res := rfl
@[simp] theorem accept_history (c : HostCall) : (s.accept c).history = s.history := rfl
@[simp] theorem accept_ans (c : HostCall) : (s.accept c).ans = c.ans := rfl
@[simp] theorem accept_inputs (c : HostCall) : (s.accept c).inputs = s.inputs := rfl
@[simp] theorem accept_free (c : HostCall) : (s.accept c).free = s.free := rfl
@[simp] theorem accept_par (c : HostCall) : (s.accept c).par = s.par := rfl

/-! ## `resetEngine` -/

@[simp] theorem resetEngine_cfg : (s.resetEngine).cfg = Config.freeConfig s.free := rfl
@[simp] theorem resetEngine_ses : (s.resetEngine).ses = freeSession s.free := rfl
@[simp] theorem resetEngine_acc : (s.resetEngine).acc = Config.freeAcc s.free := rfl
@[simp] theorem resetEngine_store : (s.resetEngine).store = s.store := rfl
@[simp] theorem resetEngine_inbound : (s.resetEngine).inbound = s.inbound := rfl
@[simp] theorem resetEngine_res : (s.resetEngine).res = s.res := rfl
@[simp] theorem resetEngine_history : (s.resetEngine).history = s.history := rfl
@[simp] theorem resetEngine_ans : (s.resetEngine).ans = s.ans := rfl
@[simp] theorem resetEngine_inputs : (s.resetEngine).inputs = s.inputs := rfl
@[simp] theorem resetEngine_free : (s.resetEngine).free = s.free + 1 := rfl
@[simp] theorem resetEngine_par : (s.resetEngine).par = s.par := rfl

/-! ## `openRx` -/

@[simp] theorem openRx_cfg (c : SessionConfig) : (s.openRx c).cfg = c := rfl
@[simp] theorem openRx_ses (c : SessionConfig) : (s.openRx c).ses = { s.ses with xferred := 0#32, seqLast := 0#8, rxCount := 0#11, starts := 0#32, hdrSeen := false, mode := c.mode } := rfl
@[simp] theorem openRx_acc (c : SessionConfig) : (s.openRx c).acc = s.acc := rfl
@[simp] theorem openRx_store (c : SessionConfig) : (s.openRx c).store = s.store := rfl
@[simp] theorem openRx_inbound (c : SessionConfig) : (s.openRx c).inbound = s.inbound := rfl
@[simp] theorem openRx_res (c : SessionConfig) : (s.openRx c).res = s.res := rfl
@[simp] theorem openRx_history (c : SessionConfig) : (s.openRx c).history = s.history := rfl
@[simp] theorem openRx_ans (c : SessionConfig) : (s.openRx c).ans = s.ans := rfl
@[simp] theorem openRx_inputs (c : SessionConfig) : (s.openRx c).inputs = s.inputs := rfl
@[simp] theorem openRx_free (c : SessionConfig) : (s.openRx c).free = s.free := rfl
@[simp] theorem openRx_par (c : SessionConfig) : (s.openRx c).par = s.par := rfl

/-! ## `openTx` -/

@[simp] theorem openTx_cfg (c : SessionConfig) : (s.openTx c).cfg = c := rfl
@[simp] theorem openTx_ses (c : SessionConfig) : (s.openTx c).ses = { s.ses with xferred := 0#32, seqLast := 0#8, starts := 0#32 } := rfl
@[simp] theorem openTx_acc (c : SessionConfig) : (s.openTx c).acc = s.acc := rfl
@[simp] theorem openTx_store (c : SessionConfig) : (s.openTx c).store = s.store := rfl
@[simp] theorem openTx_inbound (c : SessionConfig) : (s.openTx c).inbound = s.inbound := rfl
@[simp] theorem openTx_res (c : SessionConfig) : (s.openTx c).res = s.res := rfl
@[simp] theorem openTx_history (c : SessionConfig) : (s.openTx c).history = s.history := rfl
@[simp] theorem openTx_ans (c : SessionConfig) : (s.openTx c).ans = s.ans := rfl
@[simp] theorem openTx_inputs (c : SessionConfig) : (s.openTx c).inputs = s.inputs := rfl
@[simp] theorem openTx_free (c : SessionConfig) : (s.openTx c).free = s.free := rfl
@[simp] theorem openTx_par (c : SessionConfig) : (s.openTx c).par = s.par := rfl

end State

@[simp] theorem freeSession_node (k : Nat) : (freeSession k).node = .idle := rfl

@[simp] theorem reset_node : State.reset.ses.node = .idle := rfl

end Sys2Proof.Machine
end

