-- ==== Sys2Proof/Laws/Dispatch.lean ====
section
/-! SUPPORT. What selection, an arm's run, accumulation and the two steps can do, each said once. -/

namespace Sys2Proof.Machine

/-! ## An arm runs where it is selected, and nowhere else (R102, R103) -/

theorem runRx_selected {s : State} {a : RxArm} (h : s.selectRx = .next a) (body : State → Step) :
    s.runRx a body = body s := by simp [State.runRx, h]

theorem runTx_selected {s : State} {a : TxArm} (h : s.selectTx = .next a) (body : State → Step) :
    s.runTx a body = body s := by simp [State.runTx, h]

theorem runRx_not_selected {s : State} {a b : RxArm} (h : s.selectRx = .next a) (hne : a ≠ b)
    (body : State → Step) : s.runRx b body = .refused .armNotSelected := by simp [State.runRx, h, hne]

theorem runTx_not_selected {s : State} {a b : TxArm} (h : s.selectTx = .next a) (hne : a ≠ b)
    (body : State → Step) : s.runTx b body = .refused .armNotSelected := by simp [State.runTx, h, hne]

/-- A receive arm that answers a next state was selected, and its body gave that state. -/
theorem runRx_next {s t : State} {a : RxArm} {body : State → Step} (h : s.runRx a body = .next t) :
    s.selectRx = .next a ∧ body s = .next t := by
  unfold State.runRx at h
  split at h
  · next b hb =>
    split at h
    · next e => subst e; exact ⟨hb, h⟩
    · simp at h
  · simp at h
  · simp at h

/-- A transmit arm that answers a next state was selected, and its body gave that state. -/
theorem runTx_next {s t : State} {a : TxArm} {body : State → Step} (h : s.runTx a body = .next t) :
    s.selectTx = .next a ∧ body s = .next t := by
  unfold State.runTx at h
  split at h
  · next b hb =>
    split at h
    · next e => subst e; exact ⟨hb, h⟩
    · simp at h
  · simp at h
  · simp at h

/-- Each receive arm's instruction has that arm's meaning. -/
theorem exec_rxArm (a : RxArm) (s : State) : exec a.instr s = rxMeaning a s := by cases a <;> rfl

/-- Each transmit arm's instruction has that arm's meaning. -/
theorem exec_txArm (a : TxArm) (s : State) : exec a.instr s = txMeaning a s := by cases a <;> rfl

/-- `RX_STEP` is the arm it selects. -/
theorem exec_rxStep_selected {s : State} {a : RxArm} (h : s.selectRx = .next a) :
    exec .rxStep s = exec a.instr s := by
  rw [exec_rxArm]; simp [exec, execRxStep, h]

/-- `TX_STEP` is the arm it selects. -/
theorem exec_txStep_selected {s : State} {a : TxArm} (h : s.selectTx = .next a) :
    exec .txStep s = exec a.instr s := by
  rw [exec_txArm]; simp [exec, execTxStep, h]

/-- A receive step that answers a next state ran the arm it selected. -/
theorem execRxStep_next {s t : State} (h : execRxStep s = .next t) :
    ∃ a, s.selectRx = .next a ∧ rxMeaning a s = .next t := by
  unfold execRxStep at h
  split at h
  · next a ha => exact ⟨a, ha, h⟩
  · simp at h
  · simp at h

/-- A transmit step that answers a next state ran the arm it selected. -/
theorem execTxStep_next {s t : State} (h : execTxStep s = .next t) :
    ∃ a, s.selectTx = .next a ∧ txMeaning a s = .next t := by
  unfold execTxStep at h
  split at h
  · next a ha => exact ⟨a, ha, h⟩
  · simp at h
  · simp at h

/-! ## Accumulation (R129) -/

/-- The bytes a body step takes from the reader. -/
def State.bodyBytes (s : State) : List Byte :=
  if s.request = 0 then [] else s.polledBytes

/-- The collaborator calls accumulation makes. -/
def State.bodyCalls (s : State) : List Event :=
  (if s.cfg.hAvail then [.rxAvail s.ans.avail] else []) ++
    (if s.request = 0 then [] else [.rxPoll s.request s.polledBytes])

/-- Everything accumulation does: bytes to the buffer, their count, the stream shorter by them, the
calls recorded. -/
theorem accumulate_eq (s : State) :
    s.accumulate = { s with
      ses := { s.ses with
        buf := fill s.ses.buf (1 + s.ses.rxCount.toNat) s.bodyBytes
        rxCount := s.ses.rxCount + BitVec.ofNat 11 s.bodyBytes.length }
      inbound := if s.request = 0 then s.inbound else s.inbound.drop s.ans.deliver
      history := s.history ++ s.bodyCalls } := by
  cases ha : s.cfg.hAvail <;> by_cases hr : s.request = 0 <;>
    simp [State.accumulate, State.bodyBytes, State.bodyCalls, State.queryAvail, State.poll,
      State.takeBody, State.polledBytes, ha, hr]

@[simp] theorem accumulate_cfg (s : State) : s.accumulate.cfg = s.cfg := by rw [accumulate_eq]
@[simp] theorem accumulate_acc (s : State) : s.accumulate.acc = s.acc := by rw [accumulate_eq]
@[simp] theorem accumulate_store (s : State) : s.accumulate.store = s.store := by rw [accumulate_eq]
@[simp] theorem accumulate_res (s : State) : s.accumulate.res = s.res := by rw [accumulate_eq]
@[simp] theorem accumulate_ans (s : State) : s.accumulate.ans = s.ans := by rw [accumulate_eq]
@[simp] theorem accumulate_inputs (s : State) : s.accumulate.inputs = s.inputs := by rw [accumulate_eq]
@[simp] theorem accumulate_free (s : State) : s.accumulate.free = s.free := by rw [accumulate_eq]
@[simp] theorem accumulate_par (s : State) : s.accumulate.par = s.par := by rw [accumulate_eq]
@[simp] theorem accumulate_node (s : State) : s.accumulate.ses.node = s.ses.node := by rw [accumulate_eq]
@[simp] theorem accumulate_xferred (s : State) : s.accumulate.ses.xferred = s.ses.xferred := by
  rw [accumulate_eq]
@[simp] theorem accumulate_seqLast (s : State) : s.accumulate.ses.seqLast = s.ses.seqLast := by
  rw [accumulate_eq]
@[simp] theorem accumulate_tLast (s : State) : s.accumulate.ses.tLast = s.ses.tLast := by rw [accumulate_eq]
@[simp] theorem accumulate_mode (s : State) : s.accumulate.ses.mode = s.ses.mode := by rw [accumulate_eq]
@[simp] theorem accumulate_starts (s : State) : s.accumulate.ses.starts = s.ses.starts := by
  rw [accumulate_eq]
@[simp] theorem accumulate_hdrSeen (s : State) : s.accumulate.ses.hdrSeen = s.ses.hdrSeen := by
  rw [accumulate_eq]
@[simp] theorem accumulate_history (s : State) : s.accumulate.history = s.history ++ s.bodyCalls := by
  rw [accumulate_eq]

/-- The marker stays: accumulation writes from offset 1 on. -/
@[simp] theorem accumulate_marker (s : State) : s.accumulate.ses.buf[0] = s.ses.buf[0] := by
  rw [accumulate_eq]; simp [getElem_fill]

@[simp] theorem accumulate_frameSize (s : State) : s.accumulate.frameSize = s.frameSize := by
  simp [State.frameSize, State.frameSize?]

@[simp] theorem accumulate_bodyLength (s : State) : s.accumulate.bodyLength = s.bodyLength := by
  simp [State.bodyLength]

@[simp] theorem accumulate_remaining (s : State) : s.accumulate.remaining = s.remaining := by
  simp [State.remaining]

@[simp] theorem accumulate_chunk (s : State) (n : Nat) : s.accumulate.chunk n = s.chunk n := by
  simp [State.chunk]

@[simp] theorem accumulate_storeAddr (s : State) : s.accumulate.storeAddr = s.storeAddr := by
  simp [State.storeAddr]

/-- A request never exceeds what the frame needs. -/
theorem request_le_need (s : State) : s.request ≤ s.need := by
  unfold State.request; split <;> omega

/-- The count after accumulation, where the reader keeps its contract. -/
theorem accumulate_rxCount (s : State) (hsize : s.bodyLength ≤ 1028) (hcount : s.ses.rxCount.toNat < s.bodyLength)
    (hr : s.request = 0 ∨ s.ans.deliver ≤ s.request ∧ s.ans.deliver ≤ s.inbound.length) :
    s.accumulate.ses.rxCount.toNat = s.ses.rxCount.toNat + s.bodyBytes.length ∧
      s.accumulate.ses.rxCount.toNat ≤ s.bodyLength := by
  have hn := request_le_need s
  have hb : s.bodyBytes.length ≤ s.need := by
    unfold State.bodyBytes
    split
    · simp
    · simp [State.polledBytes]; omega
  unfold State.need at hb
  rw [accumulate_eq]
  simp
  omega

end Sys2Proof.Machine
end

