-- ==== Sys2Proof/Laws/Memory.lean ====
section
/-! SUPPORT. The store: a read after a write, every other address left alone, and the canonical form kept by every operation. -/

namespace Sys2Proof.Machine

@[simp] theorem Memory.read?_nil (a : Nat) : Memory.read? [] a = none := rfl

theorem Memory.read?_write (m : Memory) (a x : Nat) (b : Byte) :
    (m.write a b).read? x = if x = a then some b else m.read? x := by
  induction m with
  | nil => simp [Memory.write, Memory.read?, eq_comm]
  | cons c m ih =>
    simp only [Memory.write]
    split
    · simp only [Memory.read?, eq_comm]
    · split
      · next h => subst h; simp only [Memory.read?, eq_comm]; split <;> simp_all
      · simp only [Memory.read?, ih]
        split
        · rw [if_neg (by omega)]
        · rfl

@[simp] theorem Memory.read?_write_same (m : Memory) (a : Nat) (b : Byte) :
    (m.write a b).read? a = some b := by simp [Memory.read?_write]

theorem Memory.read?_write_other (m : Memory) {a x : Nat} (b : Byte) (h : x ≠ a) :
    (m.write a b).read? x = m.read? x := by simp [Memory.read?_write, h]

/-! ## Runs of bytes -/

/-- The address of byte `i` of a run. -/
theorem addr_succ (addr : Word32) (i : Nat) :
    addr + BitVec.ofNat 32 (i + 1) = addr + 1#32 + BitVec.ofNat 32 i := by
  rw [BitVec.ofNat_add, BitVec.add_assoc, BitVec.add_comm (BitVec.ofNat 32 i)]

/-- Every address outside the run reads as before. -/
theorem Memory.read?_writeBytes_outside (m : Memory) (addr : Word32) (bs : List Byte) (x : Nat)
    (h : ∀ i < bs.length, x ≠ (addr + BitVec.ofNat 32 i).toNat) :
    (m.writeBytes addr bs).read? x = m.read? x := by
  induction bs generalizing m addr with
  | nil => rfl
  | cons b bs ih =>
    rw [Memory.writeBytes, ih]
    · refine Memory.read?_write_other _ _ ?_
      simpa using h 0 (by simp)
    · intro i hi
      rw [← addr_succ]
      exact h (i + 1) (by simpa using hi)

/-- Two bytes of a run shorter than the address space have different addresses. -/
theorem addr_ne (addr : Word32) {i j : Nat} (hi : i < 2 ^ 32) (hj : j < 2 ^ 32) (h : i ≠ j) :
    (addr + BitVec.ofNat 32 i).toNat ≠ (addr + BitVec.ofNat 32 j).toNat := by
  intro e
  have := BitVec.add_right_inj _ |>.mp (BitVec.toNat_inj.mp e)
  have := congrArg BitVec.toNat this
  simp at this
  omega

/-- Byte `i` of the run stands at its address. -/
theorem Memory.read?_writeBytes_inside (m : Memory) (addr : Word32) (bs : List Byte)
    (hlen : bs.length ≤ 2 ^ 32) (i : Nat) (hi : i < bs.length) :
    (m.writeBytes addr bs).read? (addr + BitVec.ofNat 32 i).toNat = some bs[i] := by
  induction bs generalizing m addr i with
  | nil => simp at hi
  | cons b bs ih =>
    rw [Memory.writeBytes]
    cases i with
    | zero =>
      rw [Memory.read?_writeBytes_outside]
      · simp
      · intro j hj
        rw [← addr_succ]
        refine addr_ne addr (by omega) ?_ (by omega)
        simp at hlen; omega
    | succ i =>
      rw [addr_succ addr i]
      exact ih _ _ (by simp at hlen; omega) i (by simpa using hi)

/-! ## The canonical form -/

theorem Memory.wf_iff (m : Memory) :
    m.wf = true ↔ m.Pairwise (fun c d => c.1 < d.1) ∧ ∀ c ∈ m, c.1 < 2 ^ 32 := by
  simp [Memory.wf]

theorem Memory.mem_write {m : Memory} {a : Nat} {b : Byte} {c : Host.Cell}
    (h : c ∈ m.write a b) : c = (a, b) ∨ c ∈ m := by
  induction m with
  | nil => simpa [Memory.write] using h
  | cons d m ih =>
    simp only [Memory.write] at h
    split at h
    · simpa using h
    · split at h
      · rcases List.mem_cons.mp h with h | h
        · exact .inl h
        · exact .inr (List.mem_cons_of_mem _ h)
      · rcases List.mem_cons.mp h with h | h
        · exact .inr (h ▸ List.mem_cons_self)
        · exact (ih h).imp_right (List.mem_cons_of_mem _)

/-- A write inside the address space keeps the canonical form. -/
theorem Memory.wf_write {m : Memory} (h : m.wf = true) {a : Nat} (ha : a < 2 ^ 32) (b : Byte) :
    (m.write a b).wf = true := by
  rw [Memory.wf_iff] at h ⊢
  constructor
  · obtain ⟨h, -⟩ := h
    induction m with
    | nil => simp [Memory.write]
    | cons c m ih =>
      rw [List.pairwise_cons] at h
      simp only [Memory.write]
      split
      · next hac =>
        refine List.pairwise_cons.mpr ⟨?_, List.pairwise_cons.mpr h⟩
        intro d hd
        rcases List.mem_cons.mp hd with rfl | hd
        · exact hac
        · exact hac.trans (h.1 d hd)
      · split
        · next e => subst e; exact List.pairwise_cons.mpr ⟨fun d hd => h.1 d hd, h.2⟩
        · refine List.pairwise_cons.mpr ⟨?_, ih h.2⟩
          intro d hd
          rcases Memory.mem_write hd with rfl | hd
          · show c.1 < a; omega
          · exact h.1 d hd
  · intro c hc
    rcases Memory.mem_write hc with rfl | hc
    · exact ha
    · exact h.2 c hc

/-- A run of bytes keeps the canonical form. -/
theorem Memory.wf_writeBytes {m : Memory} (h : m.wf = true) (addr : Word32) (bs : List Byte) :
    (m.writeBytes addr bs).wf = true := by
  induction bs generalizing m addr with
  | nil => exact h
  | cons b bs ih => exact ih (Memory.wf_write h addr.isLt b) _

/-- The platform's writes keep the canonical form. -/
theorem Memory.wf_poke {m : Memory} (h : m.wf = true) (ps : List (Word32 × Byte)) :
    (m.poke ps).wf = true := by
  induction ps generalizing m with
  | nil => exact h
  | cons p ps ih => exact ih (Memory.wf_write h p.1.isLt p.2)

/-- The store after reset is in canonical form. -/
theorem Memory.wf_reset : State.reset.store.wf = true := by decide

@[simp] theorem Memory.length_readBytes (m : Memory) (addr : Word32) (n : Nat) :
    (m.readBytes addr n).length = n := by simp [Memory.readBytes]

/-- Byte `i` read is what the store holds at its address. -/
theorem Memory.getElem_readBytes (m : Memory) (addr : Word32) (n i : Nat)
    (h : i < (m.readBytes addr n).length) :
    (m.readBytes addr n)[i] = m.byteAt (addr + BitVec.ofNat 32 i) := by
  simp [Memory.readBytes]

end Sys2Proof.Machine
end

