-- ==== Sys2Proof/Laws/PerInstr.lean ====
section
/-! SUPPORT. The family `RoundTrip`: for each constructor, decoding the key the encoder gives it gives it back (R79, R82, R180; log 1). -/

namespace Sys2Proof.Laws.RoundTrip

/-- The dispatch map undoes the encoder on this instruction. -/
def Statement (i : Instr) : Prop :=
  decode (encode i) = .ok i

theorem rxInit (cfg : SessionConfig) : Statement (.rxInit cfg) := rfl
theorem rxStep : Statement .rxStep := rfl
theorem txInit (cfg : SessionConfig) : Statement (.txInit cfg) := rfl
theorem txStep : Statement .txStep := rfl
theorem rxIdle : Statement .rxIdle := rfl
theorem txIdle : Statement .txIdle := rfl
theorem rxStart : Statement .rxStart := rfl
theorem rxHdrSoh : Statement .rxHdrSoh := rfl
theorem rxHdrStx : Statement .rxHdrStx := rfl
theorem rxHdrEot : Statement .rxHdrEot := rfl
theorem rxHdrCan : Statement .rxHdrCan := rfl
theorem rxHdrWait : Statement .rxHdrWait := rfl
theorem rxHdrTmoRetry : Statement .rxHdrTmoRetry := rfl
theorem rxHdrTmoStart : Statement .rxHdrTmoStart := rfl
theorem rxHdrTmoStall : Statement .rxHdrTmoStall := rfl
theorem rxBodyWait : Statement .rxBodyWait := rfl
theorem rxBodyTmo : Statement .rxBodyTmo := rfl
theorem rxBodyMismatch : Statement .rxBodyMismatch := rfl
theorem rxBodyBadsum : Statement .rxBodyBadsum := rfl
theorem rxBodyOverrun : Statement .rxBodyOverrun := rfl
theorem rxBodyStorefail : Statement .rxBodyStorefail := rfl
theorem rxBodyAccept : Statement .rxBodyAccept := rfl
theorem txStartC : Statement .txStartC := rfl
theorem txStartNak : Statement .txStartNak := rfl
theorem txStartCan : Statement .txStartCan := rfl
theorem txStartWait : Statement .txStartWait := rfl
theorem txStartTmoRetry : Statement .txStartTmoRetry := rfl
theorem txStartTmoFatal : Statement .txStartTmoFatal := rfl
theorem txSendDone : Statement .txSendDone := rfl
theorem txSendStorefail : Statement .txSendStorefail := rfl
theorem txSendFrame : Statement .txSendFrame := rfl
theorem txAckLast : Statement .txAckLast := rfl
theorem txAckMore : Statement .txAckMore := rfl
theorem txAckNak : Statement .txAckNak := rfl
theorem txAckCan : Statement .txAckCan := rfl
theorem txAckWait : Statement .txAckWait := rfl
theorem txAckTmo : Statement .txAckTmo := rfl
theorem sum8Clear : Statement .sum8Clear := rfl
theorem sum8Absorb (b : Byte) : Statement (.sum8Absorb b) := rfl
theorem crc16Clear : Statement .crc16Clear := rfl
theorem crc16Absorb (b : Byte) : Statement (.crc16Absorb b) := rfl

end Sys2Proof.Laws.RoundTrip
end

