-- ==== Sys2Proof/Laws/Steps.lean ====
section
/-! SUPPORT. What every arm does when it answers a next state, said once: the state it gives, and the one answer of the store it asks for. -/

namespace Sys2Proof.Machine

/-- The state a receive arm leads to (R104, R120 to R136). -/
def rxAfter (a : RxArm) (s : State) : State :=
  match a with
  | .idle => s.answer .errIdle
  | .start => (((s.emit [solicitation s.ses.mode]).countStart.stamp).goto .rxAwaitHeader).answer .cont
  | .hdrSoh => ((((s.poll 1).openFrame SOH).stamp).goto .rxAwaitBody).answer .cont
  | .hdrStx => ((((s.poll 1).openFrame STX).stamp).goto .rxAwaitBody).answer .cont
  | .hdrEot =>
    ((s.poll 1).emit [ACK]).terminal (if s.ses.xferred = s.cfg.total then .success else .errEarlyEot)
  | .hdrCan => (s.poll 1).terminal .errPeerCancel
  | .hdrWait => ((s.poll 1).readClock).answer .cont
  | .hdrTmoRetry => (((s.poll 1).readClock).goto .rxStartWait).answer .cont
  | .hdrTmoStart => ((s.poll 1).readClock).terminal .errStartTimeout
  | .hdrTmoStall => ((s.poll 1).readClock).terminal .errHeaderTimeout
  | .bodyWait => s.accumulate.readClock.answer .cont
  | .bodyTmo =>
    ((((s.accumulate.readClock).emit [NAK]).setTLast s.ans.now).goto .rxAwaitHeader).answer .cont
  | .bodyMismatch => (s.accumulate.emit [CAN]).terminal .errMismatch
  | .bodyBadsum => (((s.accumulate.emit [NAK]).stamp).goto .rxAwaitHeader).answer .cont
  | .bodyOverrun => (s.accumulate.emit [CAN]).terminal .success
  | .bodyStorefail =>
    ((s.accumulate.failStore s.accumulate.delivered).emit [CAN]).terminal .errStore
  | .bodyAccept => s.accumulate.acceptPacket

/-- The state a transmit arm leads to (R105, R150 to R164); `marker` is the frame's, in the one arm
that sends one. -/
def txAfter (a : TxArm) (marker : Byte) (s : State) : State :=
  match a with
  | .idle => s.answer .errIdle
  | .startC => ((((s.poll 1).setMode .crc).stamp).goto .txSendPacket).answer .cont
  | .startNak => ((((s.poll 1).setMode .sum).stamp).goto .txSendPacket).answer .cont
  | .startCan => (s.poll 1).terminal .errPeerCancel
  | .startWait => ((s.poll 1).readClock).answer .cont
  | .startTmoRetry => (((s.poll 1).stamp).countStart).answer .cont
  | .startTmoFatal => (((s.poll 1).readClock).countStart).terminal .errStartTimeout
  | .sendDone => (s.emit [EOT]).terminal .success
  | .sendStorefail => ((s.readStore (s.chunk s.cfg.pktHint)).emit [CAN]).terminal .errStore
  | .sendFrame => s.sendFrame marker
  | .ackLast =>
    (((s.poll 1).advance (s.chunk s.cfg.pktHint) (nextSeq s.par s.ses.seqLast)).emit [EOT]).terminal .success
  | .ackMore =>
    ((((s.poll 1).advance s.cfg.pktHint (nextSeq s.par s.ses.seqLast)).stamp).goto .txSendPacket).answer .cont
  | .ackNak => (((s.poll 1).stamp).goto .txSendPacket).answer .cont
  | .ackCan => (s.poll 1).terminal .errPeerCancel
  | .ackWait => ((s.poll 1).readClock).answer .cont
  | .ackTmo => ((s.poll 1).readClock).terminal .errAckTimeout

/-- Every receive arm's meaning is the arm's run of one body. -/
theorem rxMeaning_run (a : RxArm) (s : State) : ∃ body, rxMeaning a s = s.runRx a body := by
  cases a <;> simp only [rxMeaning, execRxIdle, execRxStart, execRxHdrSoh, execRxHdrStx, execRxHdrEot,
    execRxHdrCan, execRxHdrWait, execRxHdrTmoRetry, execRxHdrTmoStart, execRxHdrTmoStall, execRxBodyWait,
    execRxBodyTmo, execRxBodyMismatch, execRxBodyBadsum, execRxBodyOverrun, execRxBodyStorefail,
    execRxBodyAccept] <;> exact ⟨_, rfl⟩

/-- Every transmit arm's meaning is the arm's run of one body. -/
theorem txMeaning_run (a : TxArm) (s : State) : ∃ body, txMeaning a s = s.runTx a body := by
  cases a <;> simp only [txMeaning, execTxIdle, execTxStartC, execTxStartNak, execTxStartCan, execTxStartWait,
    execTxStartTmoRetry, execTxStartTmoFatal, execTxSendDone, execTxSendStorefail, execTxSendFrame,
    execTxAckLast, execTxAckMore, execTxAckNak, execTxAckCan, execTxAckWait, execTxAckTmo] <;> exact ⟨_, rfl⟩

/-- The selected receive arm, but for the accepting one, leads to its state. -/
theorem rxMeaning_selected {s : State} {a : RxArm} (h : s.selectRx = .next a) (hne : a ≠ .bodyAccept) :
    rxMeaning a s = .next (rxAfter a s) := by
  cases a <;> first
    | exact absurd rfl hne
    | simp only [rxMeaning, execRxIdle, execRxStart, execRxHdrSoh, execRxHdrStx, execRxHdrEot, execRxHdrCan, execRxHdrWait,
      execRxHdrTmoRetry, execRxHdrTmoStart, execRxHdrTmoStall, execRxBodyWait, execRxBodyTmo,
      execRxBodyMismatch, execRxBodyBadsum, execRxBodyOverrun, execRxBodyStorefail,
      runRx_selected h, rxAfter]

/-- The accepting arm, where it is selected: on to its state if the store took the whole chunk. -/
theorem rxMeaning_accept {s : State} (h : s.selectRx = .next .bodyAccept) :
    rxMeaning .bodyAccept s = if s.ans.stored = s.chunk s.frameSize then .next (rxAfter .bodyAccept s)
      else .refused .storeContract := by
  simp [rxMeaning, execRxBodyAccept, runRx_selected h, rxAfter]

/-- A receive arm that is not the one selected is no step. -/
theorem rxMeaning_not_selected {s : State} {a b : RxArm} (h : s.selectRx = .next a) (hne : a ≠ b) :
    rxMeaning b s = .refused .armNotSelected := by
  obtain ⟨body, e⟩ := rxMeaning_run b s
  rw [e, runRx_not_selected h hne]

/-- Everything a receive arm that answers a next state can have done. -/
theorem rxMeaning_next {s t : State} {a : RxArm} (h : rxMeaning a s = .next t) :
    s.selectRx = .next a ∧ t = rxAfter a s ∧ (a = .bodyAccept → s.ans.stored = s.chunk s.frameSize) := by
  have hs : s.selectRx = .next a := by
    obtain ⟨body, e⟩ := rxMeaning_run a s
    exact (runRx_next (e ▸ h)).1
  by_cases ha : a = .bodyAccept
  · subst ha
    rw [rxMeaning_accept hs] at h
    split at h
    · next e => simp at h; exact ⟨hs, h.symm, fun _ => e⟩
    · simp at h
  · rw [rxMeaning_selected hs ha] at h
    simp at h
    exact ⟨hs, h.symm, fun e => absurd e ha⟩

/-- The selected transmit arm, but for the one that sends, leads to its state. -/
theorem txMeaning_selected {s : State} {a : TxArm} (h : s.selectTx = .next a) (hne : a ≠ .sendFrame)
    (marker : Byte) : txMeaning a s = .next (txAfter a marker s) := by
  cases a <;> first
    | exact absurd rfl hne
    | simp only [txMeaning, execTxIdle, execTxStartC, execTxStartNak, execTxStartCan, execTxStartWait, execTxStartTmoRetry,
      execTxStartTmoFatal, execTxSendDone, execTxSendStorefail, execTxAckLast,
      execTxAckMore, execTxAckNak, execTxAckCan, execTxAckWait, execTxAckTmo,
      runTx_selected h, txAfter]

/-- The sending arm, where it is selected and the size has a marker: on to its state if the store
gave the whole chunk. -/
theorem txMeaning_send {s : State} (h : s.selectTx = .next .sendFrame) {marker : Byte}
    (hm : markerOf s.cfg.pktHint = some marker) :
    txMeaning .sendFrame s = if s.ans.stored = s.chunk s.cfg.pktHint then .next (txAfter .sendFrame marker s)
      else .refused .storeContract := by
  simp [txMeaning, execTxSendFrame, runTx_selected h, hm, txAfter]

/-- A transmit arm that is not the one selected is no step. -/
theorem txMeaning_not_selected {s : State} {a b : TxArm} (h : s.selectTx = .next a) (hne : a ≠ b) :
    txMeaning b s = .refused .armNotSelected := by
  obtain ⟨body, e⟩ := txMeaning_run b s
  rw [e, runTx_not_selected h hne]

/-- Everything a transmit arm that answers a next state can have done. -/
theorem txMeaning_next {s t : State} {a : TxArm} (h : txMeaning a s = .next t) :
    s.selectTx = .next a ∧ ∃ marker, t = txAfter a marker s ∧
      (a = .sendFrame → markerOf s.cfg.pktHint = some marker ∧ s.ans.stored = s.chunk s.cfg.pktHint) := by
  have hs : s.selectTx = .next a := by
    obtain ⟨body, e⟩ := txMeaning_run a s
    exact (runTx_next (e ▸ h)).1
  refine ⟨hs, ?_⟩
  by_cases ha : a = .sendFrame
  · subst ha
    simp only [txMeaning, execTxSendFrame, runTx_selected hs] at h
    split at h
    · next marker hm =>
      split at h
      · next e => simp at h; exact ⟨marker, h.symm, fun _ => ⟨hm, e⟩⟩
      · simp at h
    · simp at h
  · rw [txMeaning_selected hs ha 0] at h
    simp at h
    exact ⟨0, h.symm, fun e => absurd e ha⟩

/-! ## Which arm is selected -/

theorem selectRx_header {s : State} (hn : s.ses.node = .rxAwaitHeader) (hr : s.readerOk 1 = true) :
    s.selectRx = .next (decodeHeader s.headerSignals) := by simp [State.selectRx, hn, hr]

theorem selectRx_body {s : State} (hn : s.ses.node = .rxAwaitBody) (hm : s.frameSize?.isSome = true)
    (hr : s.bodyReaderOk = true) : s.selectRx = .next (decodeBody s.accumulate.bodySignals) := by
  have : s.frameSize?.isNone = false := by
    cases h : s.frameSize? <;> simp [h] at hm ⊢
  simp [State.selectRx, hn, hr, this]

theorem selectTx_start {s : State} (hn : s.ses.node = .txAwaitStart) (hr : s.readerOk 1 = true) :
    s.selectTx = .next (decodeStart s.startSignals) := by simp [State.selectTx, hn, hr]

theorem selectTx_send {s : State} (hn : s.ses.node = .txSendPacket) (hh : hintLegal s.cfg.pktHint = true) :
    s.selectTx = .next (decodeSend s.sendSignals) := by simp [State.selectTx, hn, hh]

theorem selectTx_ack {s : State} (hn : s.ses.node = .txAwaitAck) (hr : s.readerOk 1 = true) :
    s.selectTx = .next (decodeAck s.ackSignals) := by simp [State.selectTx, hn, hr]

/-- What stands behind a selected receive arm: its node, and for a polling node a reader within its
contract and the decoder's choice. -/
theorem selectRx_next {s : State} {a : RxArm} (h : s.selectRx = .next a) :
    (s.ses.node = .idle ∧ a = .idle) ∨ (s.ses.node = .rxStartWait ∧ a = .start) ∨
    (s.ses.node = .rxAwaitHeader ∧ s.readerOk 1 = true ∧ a = decodeHeader s.headerSignals) ∨
    (s.ses.node = .rxAwaitBody ∧ s.frameSize?.isSome = true ∧ s.bodyReaderOk = true ∧
      a = decodeBody s.accumulate.bodySignals) := by
  unfold State.selectRx at h
  cases hn : s.ses.node <;> simp only [hn] at h
  · simp at h; simp [h]
  · simp at h; simp [h]
  · split at h
    · next hr => simp at h; simp [hr, h]
    · simp at h
  · split at h
    · simp at h
    · next hm =>
      split at h
      · next hr =>
        simp at h
        have : s.frameSize?.isSome = true := by cases hf : s.frameSize? <;> simp [hf] at hm ⊢
        simp [this, hr, h]
      · simp at h
  all_goals simp at h

/-- What stands behind a selected transmit arm. -/
theorem selectTx_next {s : State} {a : TxArm} (h : s.selectTx = .next a) :
    (s.ses.node = .idle ∧ a = .idle) ∨
    (s.ses.node = .txAwaitStart ∧ s.readerOk 1 = true ∧ a = decodeStart s.startSignals) ∨
    (s.ses.node = .txSendPacket ∧ hintLegal s.cfg.pktHint = true ∧ a = decodeSend s.sendSignals) ∨
    (s.ses.node = .txAwaitAck ∧ s.readerOk 1 = true ∧ a = decodeAck s.ackSignals) := by
  unfold State.selectTx at h
  cases hn : s.ses.node <;> simp only [hn] at h
  case txAwaitStart =>
    split at h
    · next hr => simp at h; simp [hr, h]
    · simp at h
  case txSendPacket =>
    split at h
    · next hr => simp at h; simp [hr, h]
    · simp at h
  case txAwaitAck =>
    split at h
    · next hr => simp at h; simp [hr, h]
    · simp at h
  all_goals simp at h; try simp [h]

/-! ## The two inits (R100, R101) -/

/-- Everything an `RX_INIT` that answers can have done. -/
theorem execRxInit_next {c : SessionConfig} {s t : State} (h : execRxInit c s = .next t) :
    t = s.answer .errConfig ∨
      s.ses.node = .idle ∧ t = (((s.openRx c).stamp).goto .rxStartWait).answer .cont := by
  unfold execRxInit at h
  split at h
  · simp at h; exact .inl h.symm
  · next hn =>
    split at h
    · simp at h; exact .inl h.symm
    · simp at h; simp at hn; exact .inr ⟨hn, h.symm⟩

/-- Everything a `TX_INIT` that answers can have done. -/
theorem execTxInit_next {c : SessionConfig} {s t : State} (h : execTxInit c s = .next t) :
    t = s.answer .errConfig ∨ s.ses.node = .idle ∧ hintLegal c.pktHint = true ∧
      t = (((s.openTx c).stamp).goto .txAwaitStart).answer .cont := by
  unfold execTxInit at h
  split at h
  · simp at h; exact .inl h.symm
  · next hn =>
    split at h
    · simp at h; exact .inl h.symm
    · split at h
      · simp at h
      · next hh => simp at h hh; simp at hn; exact .inr ⟨hn, hh, h.symm⟩

/-! ## Every instruction -/

/-- What any instruction that answers a next state can have done: an init, an arm (run as an
instruction or by its step), or a micro-operation on the accumulator. -/
theorem exec_next {i : Instr} {s t : State} (h : exec i s = .next t) :
    (∃ c, i = .rxInit c ∧ execRxInit c s = .next t) ∨ (∃ c, i = .txInit c ∧ execTxInit c s = .next t) ∨
    (∃ a : RxArm, (i = .rxStep ∨ i = a.instr) ∧ rxMeaning a s = .next t) ∨
    (∃ a : TxArm, (i = .txStep ∨ i = a.instr) ∧ txMeaning a s = .next t) ∨
    (∃ a : Acc, t = s.setAcc a ∧ i ∈ ([.sum8Clear, .crc16Clear] : List Instr)) ∨
    (∃ (a : Acc) (b : Byte), t = s.setAcc a ∧ i ∈ ([.sum8Absorb b, .crc16Absorb b] : List Instr)) := by
  have rx : ∀ a : RxArm, i = a.instr → (∃ a : RxArm, (i = .rxStep ∨ i = a.instr) ∧ rxMeaning a s = .next t) :=
    fun a e => ⟨a, .inr e, by rw [← exec_rxArm, ← e]; exact h⟩
  have tx : ∀ a : TxArm, i = a.instr → (∃ a : TxArm, (i = .txStep ∨ i = a.instr) ∧ txMeaning a s = .next t) :=
    fun a e => ⟨a, .inr e, by rw [← exec_txArm, ← e]; exact h⟩
  cases i with
  | rxInit c => exact .inl ⟨c, rfl, h⟩
  | txInit c => exact .inr (.inl ⟨c, rfl, h⟩)
  | rxStep =>
    obtain ⟨a, -, ha⟩ := execRxStep_next h
    exact .inr (.inr (.inl ⟨a, .inl rfl, ha⟩))
  | txStep =>
    obtain ⟨a, -, ha⟩ := execTxStep_next h
    exact .inr (.inr (.inr (.inl ⟨a, .inl rfl, ha⟩)))
  | rxIdle => exact .inr (.inr (.inl (rx .idle rfl)))
  | rxStart => exact .inr (.inr (.inl (rx .start rfl)))
  | rxHdrSoh => exact .inr (.inr (.inl (rx .hdrSoh rfl)))
  | rxHdrStx => exact .inr (.inr (.inl (rx .hdrStx rfl)))
  | rxHdrEot => exact .inr (.inr (.inl (rx .hdrEot rfl)))
  | rxHdrCan => exact .inr (.inr (.inl (rx .hdrCan rfl)))
  | rxHdrWait => exact .inr (.inr (.inl (rx .hdrWait rfl)))
  | rxHdrTmoRetry => exact .inr (.inr (.inl (rx .hdrTmoRetry rfl)))
  | rxHdrTmoStart => exact .inr (.inr (.inl (rx .hdrTmoStart rfl)))
  | rxHdrTmoStall => exact .inr (.inr (.inl (rx .hdrTmoStall rfl)))
  | rxBodyWait => exact .inr (.inr (.inl (rx .bodyWait rfl)))
  | rxBodyTmo => exact .inr (.inr (.inl (rx .bodyTmo rfl)))
  | rxBodyMismatch => exact .inr (.inr (.inl (rx .bodyMismatch rfl)))
  | rxBodyBadsum => exact .inr (.inr (.inl (rx .bodyBadsum rfl)))
  | rxBodyOverrun => exact .inr (.inr (.inl (rx .bodyOverrun rfl)))
  | rxBodyStorefail => exact .inr (.inr (.inl (rx .bodyStorefail rfl)))
  | rxBodyAccept => exact .inr (.inr (.inl (rx .bodyAccept rfl)))
  | txIdle => exact .inr (.inr (.inr (.inl (tx .idle rfl))))
  | txStartC => exact .inr (.inr (.inr (.inl (tx .startC rfl))))
  | txStartNak => exact .inr (.inr (.inr (.inl (tx .startNak rfl))))
  | txStartCan => exact .inr (.inr (.inr (.inl (tx .startCan rfl))))
  | txStartWait => exact .inr (.inr (.inr (.inl (tx .startWait rfl))))
  | txStartTmoRetry => exact .inr (.inr (.inr (.inl (tx .startTmoRetry rfl))))
  | txStartTmoFatal => exact .inr (.inr (.inr (.inl (tx .startTmoFatal rfl))))
  | txSendDone => exact .inr (.inr (.inr (.inl (tx .sendDone rfl))))
  | txSendStorefail => exact .inr (.inr (.inr (.inl (tx .sendStorefail rfl))))
  | txSendFrame => exact .inr (.inr (.inr (.inl (tx .sendFrame rfl))))
  | txAckLast => exact .inr (.inr (.inr (.inl (tx .ackLast rfl))))
  | txAckMore => exact .inr (.inr (.inr (.inl (tx .ackMore rfl))))
  | txAckNak => exact .inr (.inr (.inr (.inl (tx .ackNak rfl))))
  | txAckCan => exact .inr (.inr (.inr (.inl (tx .ackCan rfl))))
  | txAckWait => exact .inr (.inr (.inr (.inl (tx .ackWait rfl))))
  | txAckTmo => exact .inr (.inr (.inr (.inl (tx .ackTmo rfl))))
  | sum8Clear =>
    simp [exec, execSum8Clear] at h
    exact .inr (.inr (.inr (.inr (.inl ⟨_, h.symm, by simp⟩))))
  | sum8Absorb b =>
    simp [exec, execSum8Absorb] at h
    exact .inr (.inr (.inr (.inr (.inr ⟨_, b, h.symm, by simp⟩))))
  | crc16Clear =>
    simp [exec, execCrc16Clear] at h
    exact .inr (.inr (.inr (.inr (.inl ⟨_, h.symm, by simp⟩))))
  | crc16Absorb b =>
    simp [exec, execCrc16Absorb] at h
    exact .inr (.inr (.inr (.inr (.inr ⟨_, b, h.symm, by simp⟩))))

end Sys2Proof.Machine
end

