-- ==== Sys2Proof/Laws/Polls.lean ====
section
/-! SUPPORT. What a poll finds and which arm that selects, in the terms claims use; an arm and the step that selects it, answered together. -/

namespace Sys2Proof.Machine

/-! ## An arm as an instruction and as its step -/

/-- Where an arm is selected, its instruction and `RX_STEP` answer the same. -/
theorem exec_rx_both {s : State} {a : RxArm} {x : Step} (h : s.selectRx = .next a) (hx : rxMeaning a s = x) :
    ∀ i ∈ ([a.instr, .rxStep] : List Instr), exec i s = x := by
  intro i hi
  simp only [List.mem_cons, List.not_mem_nil, or_false] at hi
  rcases hi with rfl | rfl
  · rw [exec_rxArm, hx]
  · rw [exec_rxStep_selected h, exec_rxArm, hx]

/-- Where an arm is selected, its instruction and `TX_STEP` answer the same. -/
theorem exec_tx_both {s : State} {a : TxArm} {x : Step} (h : s.selectTx = .next a) (hx : txMeaning a s = x) :
    ∀ i ∈ ([a.instr, .txStep] : List Instr), exec i s = x := by
  intro i hi
  simp only [List.mem_cons, List.not_mem_nil, or_false] at hi
  rcases hi with rfl | rfl
  · rw [exec_txArm, hx]
  · rw [exec_txStep_selected h, exec_txArm, hx]

/-! ## One byte, or none -/

theorem State.Polls.deliver {s : State} {b : Byte} (h : s.Polls b) : s.ans.deliver = 1 := h.1

theorem State.Polls.inbound_eq {s : State} {b : Byte} (h : s.Polls b) : s.inbound = b :: s.inbound.tail := by
  obtain ⟨-, h⟩ := h
  cases hi : s.inbound <;> simp [hi] at h ⊢
  exact h

theorem State.Polls.readerOk {s : State} {b : Byte} (h : s.Polls b) : s.readerOk 1 = true := by
  rw [State.readerOk, h.deliver, h.inbound_eq]; simp

theorem State.Polls.polledBytes {s : State} {b : Byte} (h : s.Polls b) : s.polledBytes = [b] := by
  rw [State.polledBytes, h.deliver, h.inbound_eq]; simp

theorem State.Polls.drop {s : State} {b : Byte} (h : s.Polls b) : s.inbound.drop s.ans.deliver = s.inbound.tail := by
  rw [h.deliver, List.drop_one]

theorem State.PollsNoneOf.readerOk {s : State} {known : List Byte} (h : s.PollsNoneOf known) :
    s.readerOk 1 = true := by
  rcases h with h | ⟨b, h, -⟩
  · simp [State.readerOk, h]
  · exact h.readerOk

/-- The first byte polled, if any, is none of the known ones. -/
theorem State.PollsNoneOf.head {s : State} {known : List Byte} (h : s.PollsNoneOf known) :
    ∀ b ∈ known, s.polledBytes.head? ≠ some b := by
  intro b hb
  rcases h with h | ⟨c, h, hc⟩
  · simp [State.polledBytes, h]
  · rw [h.polledBytes]
    rintro ⟨⟩
    exact hc hb

/-! ## The arm selected -/

theorem selectRx_polls {s : State} {b : Byte} (hn : s.ses.node = .rxAwaitHeader) (h : s.Polls b) :
    s.selectRx = .next (decodeHeader { s.headerSignals with polled := some b }) := by
  rw [selectRx_header hn h.readerOk]; simp [State.headerSignals, h.polledBytes]

theorem selectTx_polls_start {s : State} {b : Byte} (hn : s.ses.node = .txAwaitStart) (h : s.Polls b) :
    s.selectTx = .next (decodeStart { s.startSignals with polled := some b }) := by
  rw [selectTx_start hn h.readerOk]; simp [State.startSignals, h.polledBytes]

theorem selectTx_polls_ack {s : State} {b : Byte} (hn : s.ses.node = .txAwaitAck) (h : s.Polls b) :
    s.selectTx = .next (decodeAck { s.ackSignals with polled := some b }) := by
  rw [selectTx_ack hn h.readerOk]; simp [State.ackSignals, h.polledBytes]

/-- With no recognised byte, the header arm is decided by the timeout, the latch and the budget. -/
theorem selectRx_quiet {s : State} (hn : s.ses.node = .rxAwaitHeader)
    (h : s.PollsNoneOf [0x01#8, 0x02#8, 0x04#8, 0x18#8]) :
    s.selectRx = .next (if !s.ackExpired then .hdrWait else if s.ses.hdrSeen then .hdrTmoStall
      else if s.solicitationsLeft then .hdrTmoRetry else .hdrTmoStart) := by
  rw [selectRx_header hn h.readerOk]
  have h' := h.head
  simp only [List.mem_cons, List.not_mem_nil, or_false, forall_eq_or_imp, forall_eq] at h'
  simp [decodeHeader, State.headerSignals, SOH, STX, EOT, CAN, h']
  rfl

theorem selectTx_quiet_start {s : State} (hn : s.ses.node = .txAwaitStart)
    (h : s.PollsNoneOf [0x43#8, 0x15#8, 0x18#8]) :
    s.selectTx = .next (if !s.ackExpired then .startWait else if s.intervalsLeft then .startTmoRetry
      else .startTmoFatal) := by
  rw [selectTx_start hn h.readerOk]
  have h' := h.head
  simp only [List.mem_cons, List.not_mem_nil, or_false, forall_eq_or_imp, forall_eq] at h'
  simp [decodeStart, State.startSignals, CRCREQ, NAK, CAN, h']
  rfl

theorem selectTx_quiet_ack {s : State} (hn : s.ses.node = .txAwaitAck)
    (h : s.PollsNoneOf [0x06#8, 0x15#8, 0x18#8]) :
    s.selectTx = .next (if !s.ackExpired then .ackWait else .ackTmo) := by
  rw [selectTx_ack hn h.readerOk]
  have h' := h.head
  simp only [List.mem_cons, List.not_mem_nil, or_false, forall_eq_or_imp, forall_eq] at h'
  simp [decodeAck, State.ackSignals, ACK, NAK, CAN, h']

/-! ## A body step -/

theorem State.BodyStep.selectRx {s : State} (h : s.BodyStep) :
    s.selectRx = .next (decodeBody s.accumulate.bodySignals) := by
  obtain ⟨hn, hm, hr⟩ := h
  refine selectRx_body hn ?_ ?_
  · rcases hm with hm | hm <;> simp [State.frameSize?, hm]
  · rcases hr with hr | hr
    · simp [State.bodyReaderOk, hr]
    · simp [State.bodyReaderOk, State.readerOk, hr.1, hr.2]

theorem State.BodyStep.frameSize {s : State} (h : s.BodyStep) : s.frameSize = 128 ∨ s.frameSize = 1024 := by
  rcases h.2.1 with h | h <;> simp [State.frameSize, State.frameSize?, h]

theorem ilen_le (m : Mode) : 1 ≤ ilen m ∧ ilen m ≤ 2 := by cases m <;> simp [ilen]

theorem State.BodyStep.bodyLength_le {s : State} (h : s.BodyStep) : s.bodyLength ≤ 1028 := by
  have := h.frameSize
  have := ilen_le s.ses.mode
  simp only [State.bodyLength, blen]
  omega

/-- The arm a body step selects, check by check (R138). -/
theorem State.BodyStep.selectRx_cases {s : State} (h : s.BodyStep) :
    s.selectRx = .next (
      if s.accumulate.ses.rxCount.toNat < s.bodyLength then
        if tmoExpired s.par (s.elapsed s.ans.now) s.cfg.pktTimeoutMs = false then .bodyWait else .bodyTmo
      else if ¬ (s.accumulate.ses.buf[1] = nextSeq s.par s.ses.seqLast ∧
          s.accumulate.ses.buf[2] = 0xFF#8 - s.accumulate.ses.buf[1]) then .bodyMismatch
      else if s.accumulate.integrityOk = false then .bodyBadsum
      else if s.remaining = 0 then .bodyOverrun
      else if s.ans.stored = 0 then .bodyStorefail else .bodyAccept) := by
  rw [h.selectRx]
  congr 1
  have e1 : s.accumulate.frameComplete = decide (¬ s.accumulate.ses.rxCount.toNat < s.bodyLength) := by
    simp [State.frameComplete]
  have e2 : s.accumulate.pktExpired
      = tmoExpired s.par (s.elapsed s.ans.now) s.cfg.pktTimeoutMs := by
    simp [State.pktExpired, State.elapsed]
  simp only [decodeBody, State.bodySignals, Signals.quiet, e1, e2, State.seqOk, complement,
    accumulate_seqLast, accumulate_remaining, accumulate_ans, accumulate_par]
  by_cases a1 : s.accumulate.ses.rxCount.toNat < s.bodyLength
  · simp [a1]
  · by_cases a2 : s.accumulate.ses.buf[1] = nextSeq s.par s.ses.seqLast ∧
        s.accumulate.ses.buf[2] = 0xFF#8 - s.accumulate.ses.buf[1]
    · by_cases a3 : s.accumulate.integrityOk <;> by_cases a4 : s.remaining = 0 <;> simp_all
    · simp [a1, a2]

end Sys2Proof.Machine
end

