-- ==== Sys2Proof/Laws/Relation.lean ====
section
/-! SUPPORT. The node each arm belongs to, and the outbound stream after each operation. -/

namespace Sys2Proof

/-- The node whose group a receive arm is in (R222). -/
def RxArm.home : RxArm → Node
  | .idle => .idle
  | .start => .rxStartWait
  | .hdrSoh => .rxAwaitHeader
  | .hdrStx => .rxAwaitHeader
  | .hdrEot => .rxAwaitHeader
  | .hdrCan => .rxAwaitHeader
  | .hdrWait => .rxAwaitHeader
  | .hdrTmoRetry => .rxAwaitHeader
  | .hdrTmoStart => .rxAwaitHeader
  | .hdrTmoStall => .rxAwaitHeader
  | .bodyWait => .rxAwaitBody
  | .bodyTmo => .rxAwaitBody
  | .bodyMismatch => .rxAwaitBody
  | .bodyBadsum => .rxAwaitBody
  | .bodyOverrun => .rxAwaitBody
  | .bodyStorefail => .rxAwaitBody
  | .bodyAccept => .rxAwaitBody

/-- The node whose group a transmit arm is in (R222). -/
def TxArm.home : TxArm → Node
  | .idle => .idle
  | .startC => .txAwaitStart
  | .startNak => .txAwaitStart
  | .startCan => .txAwaitStart
  | .startWait => .txAwaitStart
  | .startTmoRetry => .txAwaitStart
  | .startTmoFatal => .txAwaitStart
  | .sendDone => .txSendPacket
  | .sendStorefail => .txSendPacket
  | .sendFrame => .txSendPacket
  | .ackLast => .txAwaitAck
  | .ackMore => .txAwaitAck
  | .ackNak => .txAwaitAck
  | .ackCan => .txAwaitAck
  | .ackWait => .txAwaitAck
  | .ackTmo => .txAwaitAck

theorem decodeHeader_home (g : Signals) : (decodeHeader g).home = .rxAwaitHeader := by
  unfold decodeHeader; (repeat' split) <;> rfl

theorem decodeBody_home (g : Signals) : (decodeBody g).home = .rxAwaitBody := by
  unfold decodeBody; (repeat' split) <;> rfl

theorem decodeStart_home (g : Signals) : (decodeStart g).home = .txAwaitStart := by
  unfold decodeStart; (repeat' split) <;> rfl

theorem decodeSend_home (g : Signals) : (decodeSend g).home = .txSendPacket := by
  unfold decodeSend; (repeat' split) <;> rfl

theorem decodeAck_home (g : Signals) : (decodeAck g).home = .txAwaitAck := by
  unfold decodeAck; (repeat' split) <;> rfl

namespace Machine

/-- The selected receive arm is one of its node's. -/
theorem selectRx_home {s : State} {a : RxArm} (h : s.selectRx = .next a) : s.ses.node = a.home := by
  obtain ⟨hn, rfl⟩ | ⟨hn, rfl⟩ | ⟨hn, -, rfl⟩ | ⟨hn, -, -, rfl⟩ := selectRx_next h <;> rw [hn]
  · rfl
  · rfl
  · rw [decodeHeader_home]
  · rw [decodeBody_home]

/-- The selected transmit arm is one of its node's. -/
theorem selectTx_home {s : State} {a : TxArm} (h : s.selectTx = .next a) : s.ses.node = a.home := by
  obtain ⟨hn, rfl⟩ | ⟨hn, -, rfl⟩ | ⟨hn, -, rfl⟩ | ⟨hn, -, rfl⟩ := selectTx_next h <;> rw [hn]
  · rfl
  · rw [decodeStart_home]
  · rw [decodeSend_home]
  · rw [decodeAck_home]

/-! ## The outbound stream -/

namespace State

variable (s : State)

@[simp] theorem emit_outbound (bytes : List Byte) : (s.emit bytes).outbound = s.outbound ++ bytes := by
  simp [outbound]

@[simp] theorem readClock_outbound : s.readClock.outbound = s.outbound := by simp [outbound]
@[simp] theorem queryAvail_outbound : s.queryAvail.outbound = s.outbound := by simp [outbound]
@[simp] theorem poll_outbound (n : Nat) : (s.poll n).outbound = s.outbound := by simp [outbound]
@[simp] theorem readStore_outbound (n : Nat) : (s.readStore n).outbound = s.outbound := by simp [outbound]

@[simp] theorem writeStore_outbound (bytes : List Byte) : (s.writeStore bytes).outbound = s.outbound := by
  simp [outbound, writeStore]

@[simp] theorem failStore_outbound (bytes : List Byte) : (s.failStore bytes).outbound = s.outbound := by
  simp [outbound, failStore]

@[simp] theorem setTLast_outbound (t : Word32) : (s.setTLast t).outbound = s.outbound := rfl
@[simp] theorem stamp_outbound : s.stamp.outbound = s.outbound := by simp [stamp]
@[simp] theorem goto_outbound (n : Node) : (s.goto n).outbound = s.outbound := rfl
@[simp] theorem countStart_outbound : s.countStart.outbound = s.outbound := rfl
@[simp] theorem setMode_outbound (m : Mode) : (s.setMode m).outbound = s.outbound := rfl
@[simp] theorem openFrame_outbound (marker : Byte) : (s.openFrame marker).outbound = s.outbound := rfl
@[simp] theorem advance_outbound (n : Nat) (seq : Byte) : (s.advance n seq).outbound = s.outbound := rfl
@[simp] theorem loadFrame_outbound (frame : List Byte) : (s.loadFrame frame).outbound = s.outbound := rfl
@[simp] theorem retireAcc_outbound : s.retireAcc.outbound = s.outbound := rfl
@[simp] theorem answer_outbound (r : Result) : (s.answer r).outbound = s.outbound := rfl
@[simp] theorem terminal_outbound (r : Result) : (s.terminal r).outbound = s.outbound := rfl
@[simp] theorem takeBody_outbound (bytes : List Byte) : (s.takeBody bytes).outbound = s.outbound := rfl

@[simp] theorem accumulate_outbound : s.accumulate.outbound = s.outbound := by
  simp only [accumulate]
  split <;> split <;> simp

@[simp] theorem acceptPacket_outbound : s.acceptPacket.outbound = s.outbound ++ [ACK] := by
  simp [acceptPacket]

@[simp] theorem sendFrame_outbound (marker : Byte) :
    (s.sendFrame marker).outbound = s.outbound ++ s.outFrame marker := by simp [sendFrame]

end State

end Machine

end Sys2Proof
end

