-- ==== Sys2Proof/Tests/Slice0.lean ====
section
/-! SUPPORT. The model's own tests: ill-formed terms refused, every constructor's decoding from a key or word written out from the spec, one-step tests with results from spec/95_test_vectors.md, and for every obligation with hypotheses a state that meets them. -/

set_option Elab.async false

open Sys2Proof Sys2Proof.Machine

namespace Sys2Proof.Tests

/-! ## Small states -/

/-- Everything bound but the buffered-count query (R84: `CFG` with unnamed handles bound). -/
def cfg : SessionConfig where
  addr := 0x20000000#32
  total := 3
  pktHint := 128
  mode := .crc
  startRetries := 3
  pktTimeoutMs := 1000
  ackTimeoutMs := 3000
  hClock := true
  hReader := true
  hAvail := false
  hWriter := true
  hStoreRd := true
  hStoreWr := true

def session (n : Node) : Session where
  node := n
  xferred := 0
  seqLast := 0
  tLast := 0
  rxCount := 0
  buf := Vector.replicate 1029 0x00#8
  mode := .crc
  starts := 1
  hdrSeen := false

/-- A state in a node, the clock at `now`, nothing to read. -/
def silent (n : Node) (now : Word32) : State where
  cfg := cfg
  ses := session n
  acc := 0
  store := []
  inbound := []
  res := none
  history := []
  ans := { now := now, deliver := 0, avail := 0, stored := 0 }
  inputs := []
  free := 0
  par := params

/-- The same with one byte, which the reader hands over. -/
def polling (n : Node) (b : Byte) (now : Word32) : State :=
  { silent n now with inbound := [b], ans := { now := now, deliver := 1, avail := 0, stored := 0 } }

/-- The session of a state changed. -/
def onSession (f : Session → Session) (s : State) : State := { s with ses := f s.ses }

/-- A receiver that has taken a frame's marker and is handed the rest of it in one poll. -/
def body (frame : List Byte) (now : Word32) (stored : Nat) : State :=
  { silent .rxAwaitBody now with
    ses := { session .rxAwaitBody with buf := fill (Vector.replicate 1029 0x00#8) 0 (frame.take 1), hdrSeen := true }
    inbound := frame.drop 1
    ans := { now := now, deliver := frame.length - 1, avail := 0, stored := stored } }

/-- `FRAME(01, 01, "ABC", CRC)` of section 2.2. -/
def abcCrc : List Byte :=
  [0x01, 0x01, 0xFE, 0x41, 0x42, 0x43] ++ List.replicate 125 0x1A#8 ++ [0x41, 0x4B]

/-- `FRAME(01, 01, "ABC", SUM)` of section 2.2. -/
def abcSum : List Byte :=
  [0x01, 0x01, 0xFE, 0x41, 0x42, 0x43] ++ List.replicate 125 0x1A#8 ++ [0x78]

/-- The same frame with a CRC one off (R133's example). -/
def abcBad : List Byte :=
  [0x01, 0x01, 0xFE, 0x41, 0x42, 0x43] ++ List.replicate 125 0x1A#8 ++ [0x41, 0x4A]

/-- A valid frame with sequence 2 (section 2.2). -/
def seq2Crc : List Byte :=
  [0x01, 0x02, 0xFD, 0x80, 0x81] ++ List.replicate 126 0x1A#8 ++ [0x52, 0xB7]

/-- A sender of the bytes `41 42 43`. -/
def sender (now : Word32) (stored : Nat) : State :=
  { silent .txSendPacket now with
    cfg := { cfg with addr := 0x08010000#32 }
    store := [(0x08010000, 0x41#8), (0x08010001, 0x42#8), (0x08010002, 0x43#8)]
    ans := { now := now, deliver := 0, avail := 0, stored := stored } }

/-- Something read off the next state, if there is one. -/
def look {α : Type} (f : State → α) : Step → Option α
  | .next t => some (f t)
  | .fault _ => none
  | .refused _ => none

/-- Why there is no step, if there is none. -/
def refusal : Step → Option Refusal
  | .next _ => none
  | .fault _ => none
  | .refused r => some r

/-- Node, result and bytes emitted: what the transition table of R222 lists. -/
def row (t : State) : Node × Option Result × List Byte := (t.ses.node, t.res, t.outbound)

/-! ## Well-formedness: the one check, and a term it refuses -/

theorem test_wellFormed_refuses_hint_of_256 : (Instr.txInit { cfg with pktHint := 256 }).wellFormed = false := by decide
theorem test_wellFormed_refuses_hint_of_0 : (Instr.txInit { cfg with pktHint := 0 }).wellFormed = false := by decide
theorem test_wellFormed_takes_both_sizes :
    (Instr.txInit cfg).wellFormed = true ∧ (Instr.txInit { cfg with pktHint := 1024 }).wellFormed = true ∧
      (Instr.rxInit { cfg with pktHint := 0 }).wellFormed = true := by decide

/-! ## Decoding, from R79, R82, R137, R138, R165 to R167, R180 and the opcode table's conditions -/

/-- Conditions of a control-byte node: byte polled, timeout expired, marker seen, budget left, last packet. -/
def poll (b : Option Byte) (expired seen left last : Bool) : Signals where
  polled := b
  expired := expired
  hdrSeen := seen
  budgetLeft := left
  complete := false
  seqOk := false
  sumOk := false
  remaining := false
  storeOk := false
  lastPacket := last

/-- Conditions of a body or send step: complete, expired, sequence, integrity, bytes remaining, store. -/
def check (complete expired seq sum left store : Bool) : Signals where
  polled := some 0x18#8
  expired := expired
  hdrSeen := true
  budgetLeft := true
  complete := complete
  seqOk := seq
  sumOk := sum
  remaining := left
  storeOk := store
  lastPacket := true

theorem test_decode_host_operations :
    decode (.call 0b00#2 cfg) = .ok (.rxInit cfg) ∧ decode (.call 0b01#2 cfg) = .ok .rxStep ∧
    decode (.call 0b10#2 cfg) = .ok (.txInit cfg) ∧ decode (.call 0b11#2 cfg) = .ok .txStep := by decide

theorem test_decode_idle_and_start_nodes :
    decode (.rx .idle (poll none true true true true)) = .ok .rxIdle ∧
    decode (.tx .idle (poll none true true true true)) = .ok .txIdle ∧
    decode (.rx .rxStartWait (poll none true true true true)) = .ok .rxStart := by decide

theorem test_decode_header_bytes :
    decode (.rx .rxAwaitHeader (poll (some 0b00000001#8) true true false false)) = .ok .rxHdrSoh ∧
    decode (.rx .rxAwaitHeader (poll (some 0b00000010#8) true false true false)) = .ok .rxHdrStx ∧
    decode (.rx .rxAwaitHeader (poll (some 0b00000100#8) true true false false)) = .ok .rxHdrEot ∧
    decode (.rx .rxAwaitHeader (poll (some 0b00011000#8) true true true false)) = .ok .rxHdrCan := by decide

theorem test_decode_header_timeouts :
    decode (.rx .rxAwaitHeader (poll (some 0b00000110#8) false true false false)) = .ok .rxHdrWait ∧
    decode (.rx .rxAwaitHeader (poll none true false true false)) = .ok .rxHdrTmoRetry ∧
    decode (.rx .rxAwaitHeader (poll (some 0b01010101#8) true false false false)) = .ok .rxHdrTmoStart ∧
    decode (.rx .rxAwaitHeader (poll none true true true false)) = .ok .rxHdrTmoStall := by decide

theorem test_decode_body :
    decode (.rx .rxAwaitBody (check false false false false false false)) = .ok .rxBodyWait ∧
    decode (.rx .rxAwaitBody (check false true true true true true)) = .ok .rxBodyTmo ∧
    decode (.rx .rxAwaitBody (check true true false false false false)) = .ok .rxBodyMismatch ∧
    decode (.rx .rxAwaitBody (check true true true false false false)) = .ok .rxBodyBadsum ∧
    decode (.rx .rxAwaitBody (check true true true true false false)) = .ok .rxBodyOverrun ∧
    decode (.rx .rxAwaitBody (check true true true true true false)) = .ok .rxBodyStorefail ∧
    decode (.rx .rxAwaitBody (check true true true true true true)) = .ok .rxBodyAccept := by decide

theorem test_decode_start :
    decode (.tx .txAwaitStart (poll (some 0b01000011#8) true true false false)) = .ok .txStartC ∧
    decode (.tx .txAwaitStart (poll (some 0b00010101#8) true true false false)) = .ok .txStartNak ∧
    decode (.tx .txAwaitStart (poll (some 0b00011000#8) true true false false)) = .ok .txStartCan ∧
    decode (.tx .txAwaitStart (poll (some 0b00000110#8) false true false false)) = .ok .txStartWait ∧
    decode (.tx .txAwaitStart (poll none true true true false)) = .ok .txStartTmoRetry ∧
    decode (.tx .txAwaitStart (poll none true true false false)) = .ok .txStartTmoFatal := by decide

theorem test_decode_send :
    decode (.tx .txSendPacket (check false false false false false false)) = .ok .txSendDone ∧
    decode (.tx .txSendPacket (check false false false false true false)) = .ok .txSendStorefail ∧
    decode (.tx .txSendPacket (check false false false false true true)) = .ok .txSendFrame := by decide

theorem test_decode_ack :
    decode (.tx .txAwaitAck (poll (some 0b00000110#8) true true false true)) = .ok .txAckLast ∧
    decode (.tx .txAwaitAck (poll (some 0b00000110#8) true true false false)) = .ok .txAckMore ∧
    decode (.tx .txAwaitAck (poll (some 0b00010101#8) true true false true)) = .ok .txAckNak ∧
    decode (.tx .txAwaitAck (poll (some 0b00011000#8) true true false true)) = .ok .txAckCan ∧
    decode (.tx .txAwaitAck (poll (some 0b01000011#8) false true false true)) = .ok .txAckWait ∧
    decode (.tx .txAwaitAck (poll none true true true true)) = .ok .txAckTmo := by decide

theorem test_decode_integrator :
    decode (.integ .sum none) = .ok .sum8Clear ∧ decode (.integ .sum (some 0x41#8)) = .ok (.sum8Absorb 0x41#8) ∧
    decode (.integ .crc none) = .ok .crc16Clear ∧
    decode (.integ .crc (some 0x41#8)) = .ok (.crc16Absorb 0x41#8) := by decide

theorem test_decode_rejects_wrong_direction :
    decode (.rx .txAwaitAck Signals.quiet) = .error .wrongDirection ∧
    decode (.tx .rxAwaitBody Signals.quiet) = .error .wrongDirection := by decide

/-- The words of spec/opcode_table.json that name one row only, and words of no row. -/
theorem test_decode_table_words :
    decodeTableWord 8 0b00000000 = some (.rxInit .zero) ∧ decodeTableWord 8 0b00000011 = some .txStep ∧
    decodeTableWord 8 0b00000100 = some .rxHdrEot ∧ decodeTableWord 8 0b01000011 = some .txStartC ∧
    decodeTableWord 8 0b00000101 = none ∧ decodeTableWord 8 0b00011010 = none := by decide +kernel

/-! ## One step (spec/95_test_vectors.md 2.3 to 2.5, and the examples of the arms' rules) -/

theorem test_rxInit_accepted :
    look (fun t => (row t, t.ses.tLast, t.ses.starts, t.ses.mode)) (exec (.rxInit cfg) (silent .idle 100)) = some ((.rxStartWait, some .cont, []), 100, 0, .crc) := by decide +kernel

theorem test_rxInit_unbound_store :
    look (fun t => (row t, t.history)) (exec (.rxInit { cfg with hStoreWr := false }) (silent .idle 100)) = some ((.idle, some .errConfig, []), []) := by decide +kernel

theorem test_txInit_write_accessor_unbound :
    look (fun t => (row t, t.ses.tLast, t.ses.starts)) (exec (.txInit { cfg with hStoreWr := false }) (silent .idle 3)) = some ((.txAwaitStart, some .cont, []), 3, 0) := by decide +kernel

theorem test_txInit_while_active :
    look row (exec (.txInit cfg) (silent .rxStartWait 3)) = some (.rxStartWait, some .errConfig, []) := by decide +kernel

theorem test_rxStep_in_idle :
    look (fun t => (row t, t.history)) (exec .rxStep (silent .idle 5)) = some ((.idle, some .errIdle, []), []) := by decide +kernel

theorem test_txStep_in_receive_node :
    refusal (exec .txStep (silent .rxAwaitHeader 5)) = some .wrongDirection := by decide +kernel

theorem test_rxIdle :
    look row (exec .rxIdle (silent .idle 5)) = some (.idle, some .errIdle, []) := by decide +kernel

theorem test_txIdle :
    look row (exec .txIdle (silent .idle 5)) = some (.idle, some .errIdle, []) := by decide +kernel

theorem test_rxStart_checksum_mode :
    look (fun t => (row t, t.ses.starts, t.ses.tLast)) (exec .rxStart (onSession ({ · with mode := .sum }) (silent .rxStartWait 3001))) = some ((.rxAwaitHeader, some .cont, [0x15#8]), 2, 3001) := by decide +kernel

theorem test_rxHdrSoh_beats_expired_timeout :
    look (fun t => (row t, t.ses.buf[0], t.ses.rxCount, t.ses.hdrSeen, t.ses.tLast)) (exec .rxHdrSoh (polling .rxAwaitHeader 0x01#8 99999)) = some ((.rxAwaitBody, some .cont, []), 0x01#8, 0, true, 99999) := by decide +kernel

theorem test_rxHdrStx :
    look (fun t => (row t, t.ses.buf[0], t.ses.hdrSeen, t.ses.tLast)) (exec .rxHdrStx (polling .rxAwaitHeader 0x02#8 5)) = some ((.rxAwaitBody, some .cont, []), 0x02#8, true, 5) := by decide +kernel

theorem test_rxHdrEot_complete :
    look (fun t => (row t, t.history.length)) (exec .rxHdrEot (onSession ({ · with xferred := 3 }) (polling .rxAwaitHeader 0x04#8 0))) = some ((.idle, some .success, [0x06#8]), 2) := by decide +kernel

theorem test_rxHdrEot_early :
    look row (exec .rxHdrEot (polling .rxAwaitHeader 0x04#8 0)) = some (.idle, some .errEarlyEot, [0x06#8]) := by decide +kernel

theorem test_rxHdrCan :
    look row (exec .rxHdrCan (polling .rxAwaitHeader 0x18#8 99999)) = some (.idle, some .errPeerCancel, []) := by decide +kernel

theorem test_rxHdrWait_junk :
    look (fun t => (row t, t.inbound, t.ses.tLast)) (exec .rxHdrWait (onSession ({ · with tLast := 3001 }) (polling .rxAwaitHeader 0x55#8 4000))) = some ((.rxAwaitHeader, some .cont, []), [], 3001) := by decide +kernel

theorem test_rxHdrWait_last_millisecond :
    look row (exec .rxHdrWait (silent .rxAwaitHeader 2999)) = some (.rxAwaitHeader, some .cont, []) := by decide +kernel

theorem test_rxHdrTmoRetry_with_junk :
    look (fun t => (row t, t.ses.tLast, t.ses.starts)) (exec .rxHdrTmoRetry (polling .rxAwaitHeader 0x55#8 3000)) = some ((.rxStartWait, some .cont, []), 0, 1) := by decide +kernel

theorem test_rxHdrTmoStart :
    look row (exec .rxHdrTmoStart (onSession ({ · with starts := 3, tLast := 6300 }) (silent .rxAwaitHeader 9300))) = some (.idle, some .errStartTimeout, []) := by decide +kernel

theorem test_rxHdrTmoStall :
    look row (exec .rxHdrTmoStall (onSession ({ · with hdrSeen := true, tLast := 1150 }) (silent .rxAwaitHeader 4150))) = some (.idle, some .errHeaderTimeout, []) := by decide +kernel

theorem test_rxBodyWait_takes_fifty :
    look (fun t => (row t, t.ses.rxCount, t.ses.buf[4], t.inbound.length)) (exec .rxBodyWait { onSession ({ · with tLast := 150 }) (body abcCrc 160 0) with ans := { now := 160, deliver := 50, avail := 0, stored := 0 } }) = some ((.rxAwaitBody, some .cont, []), 50, 0x42#8, 82) := by decide +kernel

theorem test_rxBodyWait_no_poll_when_nothing_buffered :
    look (fun t => (t.history, t.ses.rxCount)) (exec .rxBodyWait { body abcCrc 6 0 with cfg := { cfg with hAvail := true }, ans := { now := 6, deliver := 0, avail := 0, stored := 0 } }) = some ([.rxAvail 0, .now 6], 0) := by decide +kernel

theorem test_rxBodyTmo :
    look (fun t => (row t, t.ses.tLast, t.ses.seqLast, t.ses.xferred, t.history.length)) (exec .rxBodyTmo { onSession ({ · with tLast := 150, rxCount := 50 }) (body abcCrc 1150 0) with ans := { now := 1150, deliver := 0, avail := 0, stored := 0 } }) = some ((.rxAwaitHeader, some .cont, [0x15#8]), 1150, 0, 0, 3) := by decide +kernel

theorem test_rxBodyMismatch_duplicate :
    look (fun t => (row t, t.store)) (exec .rxBodyMismatch (onSession ({ · with seqLast := 1 }) (body abcCrc 0 3))) = some ((.idle, some .errMismatch, [0x18#8]), []) := by decide +kernel

/-- R85: 1, not 0, follows 255. -/
theorem test_rxBodyMismatch_beats_bad_integrity :
    look row (exec .rxBodyMismatch (onSession ({ · with seqLast := 255 }) (body ([0x01, 0x00, 0xFF] ++ List.replicate 130 0x18#8) 0 3))) = some (.idle, some .errMismatch, [0x18#8]) := by decide +kernel

theorem test_rxBodyBadsum :
    look (fun t => (row t, t.ses.tLast, t.store.length)) (exec .rxBodyBadsum (body abcBad 30 3)) = some ((.rxAwaitHeader, some .cont, [0x15#8]), 30, 0) := by decide +kernel

theorem test_rxBodyBadsum_checksum_mode :
    look row (exec .rxBodyBadsum (onSession ({ · with mode := .sum }) (body (abcSum.dropLast ++ [0x79]) 30 3))) = some (.rxAwaitHeader, some .cont, [0x15#8]) := by decide +kernel

theorem test_rxBodyOverrun :
    look (fun t => (row t, t.store)) (exec .rxBodyOverrun { onSession ({ · with seqLast := 1, xferred := 128 }) (body seq2Crc 0 0) with cfg := { cfg with total := 128 } }) = some ((.idle, some .success, [0x18#8]), []) := by decide +kernel

theorem test_rxBodyStorefail :
    look (fun t => (row t, t.store.map (·.1))) (exec .rxBodyStorefail (body abcCrc 0 0)) = some ((.idle, some .errStore, [0x18#8]), [0x20000000, 0x20000001, 0x20000002]) := by decide +kernel

theorem test_rxBodyAccept :
    look (fun t => (row t, t.store, t.ses.tLast)) (exec .rxBodyAccept (body abcCrc 200 3)) = some ((.rxAwaitHeader, some .cont, [0x06#8]),
      [(0x20000000, 0x41#8), (0x20000001, 0x42#8), (0x20000002, 0x43#8)], 200) := by decide +kernel

theorem test_rxBodyAccept_second_packet :
    look (fun t => (row t, t.store, t.ses.xferred, t.ses.seqLast)) (exec .rxBodyAccept { onSession ({ · with seqLast := 1, xferred := 128 }) (body seq2Crc 0 2) with cfg := { cfg with total := 130 } }) = some ((.rxAwaitHeader, some .cont, [0x06#8]), [(0x20000080, 0x80#8), (0x20000081, 0x81#8)], 130, 2) := by decide +kernel

theorem test_txStartC :
    look (fun t => (row t, t.ses.mode, t.ses.tLast)) (exec .txStartC (onSession ({ · with mode := .sum }) (polling .txAwaitStart 0x43#8 40))) = some ((.txSendPacket, some .cont, []), .crc, 40) := by decide +kernel

theorem test_txStartNak :
    look (fun t => (row t, t.ses.mode, t.ses.tLast)) (exec .txStartNak (polling .txAwaitStart 0x15#8 40)) = some ((.txSendPacket, some .cont, []), .sum, 40) := by decide +kernel

theorem test_txStartCan :
    look (fun t => (row t, t.history.length)) (exec .txStartCan (polling .txAwaitStart 0x18#8 0)) = some ((.idle, some .errPeerCancel, []), 1) := by decide +kernel

theorem test_txStartWait_stale_ack :
    look (fun t => (row t, t.inbound)) (exec .txStartWait (polling .txAwaitStart 0x06#8 10)) = some ((.txAwaitStart, some .cont, []), []) := by decide +kernel

theorem test_txStartTmoRetry :
    look (fun t => (row t, t.ses.starts, t.ses.tLast)) (exec .txStartTmoRetry (onSession ({ · with starts := 0 }) (silent .txAwaitStart 3000))) = some ((.txAwaitStart, some .cont, []), 1, 3000) := by decide +kernel

theorem test_txStartTmoFatal :
    look row (exec .txStartTmoFatal { onSession ({ · with tLast := 3000 }) (silent .txAwaitStart 6000) with cfg := { cfg with startRetries := 2 } }) = some (.idle, some .errStartTimeout, []) := by decide +kernel

theorem test_txStartTmoFatal_budget_zero :
    look row (exec .txStartTmoFatal { onSession ({ · with starts := 0 }) (silent .txAwaitStart 50) with cfg := { cfg with startRetries := 0, ackTimeoutMs := 50 } }) = some (.idle, some .errStartTimeout, []) := by decide +kernel

theorem test_txSendDone :
    look (fun t => (row t, t.history.length)) (exec .txSendDone { sender 0 0 with cfg := { cfg with total := 0 } }) = some ((.idle, some .success, [0x04#8]), 1) := by decide +kernel

theorem test_txSendStorefail :
    look (fun t => (row t, t.history.length)) (exec .txSendStorefail (sender 0 0)) = some ((.idle, some .errStore, [0x18#8]), 2) := by decide +kernel

theorem test_txSendFrame_crc :
    look (fun t => (row t, t.ses.tLast, t.ses.xferred, t.ses.seqLast)) (exec .txSendFrame (sender 6 3)) = some ((.txAwaitAck, some .cont, abcCrc), 6, 0, 0) := by decide +kernel

theorem test_txSendFrame_sum_after_255 :
    look (fun t => t.outbound.take 3) (exec .txSendFrame (onSession ({ · with mode := .sum, seqLast := 255 }) (sender 6 3))) = some [0x01#8, 0x01#8, 0xFE#8] := by decide +kernel

theorem test_txAckLast_exact_multiple :
    look (fun t => (row t, t.history.length)) (exec .txAckLast { polling .txAwaitAck 0x06#8 99999 with cfg := { cfg with total := 128 } }) = some ((.idle, some .success, [0x04#8]), 2) := by decide +kernel

theorem test_txAckMore :
    look (fun t => (row t, t.ses.xferred, t.ses.seqLast, t.ses.tLast)) (exec .txAckMore { polling .txAwaitAck 0x06#8 70 with cfg := { cfg with total := 130 } }) = some ((.txSendPacket, some .cont, []), 128, 1, 70) := by decide +kernel

theorem test_txAckNak :
    look (fun t => (row t, t.ses.xferred, t.ses.seqLast, t.ses.tLast)) (exec .txAckNak (polling .txAwaitAck 0x15#8 90)) = some ((.txSendPacket, some .cont, []), 0, 0, 90) := by decide +kernel

theorem test_txAckCan :
    look row (exec .txAckCan (polling .txAwaitAck 0x18#8 0)) = some (.idle, some .errPeerCancel, []) := by decide +kernel

theorem test_txAckWait_across_clock_wrap :
    look row (exec .txAckWait { onSession ({ · with tLast := 0xFFFFFF00#32 }) (silent .txAwaitAck 0x000002E7#32) with cfg := { cfg with ackTimeoutMs := 1000 } }) = some (.txAwaitAck, some .cont, []) := by decide +kernel

theorem test_txAckTmo_across_clock_wrap :
    look row (exec .txAckTmo { onSession ({ · with tLast := 0xFFFFFF00#32 }) (silent .txAwaitAck 0x000002E8#32) with cfg := { cfg with ackTimeoutMs := 1000 } }) = some (.idle, some .errAckTimeout, []) := by decide +kernel

/-! ## The integrator (section 2.1, and the example of R183) -/

theorem test_sum8Clear_keeps_upper_byte :
    look (·.acc) (exec .sum8Clear { silent .idle 0 with acc := 0x12FF#16 }) = some 0x1200#16 := by decide +kernel

theorem test_sum8Absorb_wraps :
    look (·.acc) (exec (.sum8Absorb 0xFF#8) { silent .idle 0 with acc := 0x0002#16 }) = some 0x0001#16 := by decide +kernel

theorem test_crc16Clear :
    look (·.acc) (exec .crc16Clear { silent .idle 0 with acc := 0x12FF#16 }) = some 0x0000#16 := by decide +kernel

theorem test_crc16Absorb_of_41 :
    look (·.acc) (exec (.crc16Absorb 0x41#8) (silent .idle 0)) = some 0x58E5#16 := by decide +kernel

theorem test_crc16Absorb_second_byte :
    look (·.acc) (exec (.crc16Absorb 0x32#8) { silent .idle 0 with acc := crc16 params [0x31#8] }) = some 0x20B5#16 := by decide +kernel

theorem test_sum8_of_swapped_bytes_agrees_and_crc_differs :
    (sum8 ([1, 0] ++ (List.range' 2 126).map (BitVec.ofNat 8)), crc16 params ([1, 0] ++ (List.range' 2 126).map (BitVec.ofNat 8))) = (0xC0#8, 0x4C5B#16) := by decide +kernel

theorem test_bit_serial_of_check_string :
    crcSerial params [0x31#8, 0x32#8, 0x33#8, 0x34#8, 0x35#8, 0x36#8, 0x37#8, 0x38#8, 0x39#8] = 0x31C3#16 := by decide +kernel

/-! ## A step takes an input -/

/-- Under another choice of the parameters: `elapsed > T`, 0 after 255, and success numbered 7. -/
def otherwise : Config.Params :=
  { params with
    tmoStrict := true, seqWrapTo := 0
    resultCodes := { params.resultCodes with success := 7, errMismatch := 1 } }

theorem test_timeout_under_strict_reading :
    look row (exec .txAckWait { silent .txAwaitAck 3000 with par := otherwise }) = some (.txAwaitAck, some .cont, []) := by decide

theorem test_result_and_sequence_numbers_of_other_parameters :
    look (·.resCode) (exec .txAckLast { polling .txAwaitAck 0x06 0 with par := otherwise }) = some (some 7) ∧
      nextSeq otherwise 0xFF = 0 := by decide

theorem test_step_runs_the_call :
    look (fun t => (row t, t.inputs, t.inbound)) (step { silent .rxAwaitHeader 0 with inputs := [.call { op := 0b01#2, operand := cfg, arrivals := [0x01#8, 0x01#8], pokes := [], ans := { now := 150, deliver := 1, avail := 0, stored := 0 } }] }) = some ((.rxAwaitBody, some .cont, []), [], [0x01#8]) := by decide +kernel

theorem test_step_reset_leaves_streams_and_store :
    look (fun t => (t.ses.node, t.inbound, t.store)) (step { polling .txAwaitAck 0x06#8 0 with store := [(7, 9#8)], inputs := [.reset] }) = some (.idle, [0x06#8], [(7, 9#8)]) := by decide +kernel

/-- The word `0x43` runs TX.START.C; the word `0x01` is first of all the select code of `RX_STEP` (log 15), which in `Idle` runs RX.IDLE. -/
theorem test_step_runs_table_word :
    (look (·.ses.node) (step (State.reset.withFetchWord 8 0x43)), look (·.ses.node) (step (State.reset.withFetchWord 8 0x01))) = (some .txSendPacket, some .idle) := by decide +kernel
/-! ## For every obligation with hypotheses, something that meets them all -/

/-- Reading a next state off an outcome. -/
theorem of_look {α : Type} {f : State → α} {x : Step} {v : α} (h : look f x = some v) :
    ∃ t, x = .next t ∧ f t = v := by
  cases x with
  | next t => exact ⟨t, rfl, by simpa [look] using h⟩
  | fault r => simp [look] at h
  | refused r => simp [look] at h

/-- A step call with nothing else in it. -/
def rxCall : HostCall := .bare 0b01#2 cfg

theorem witness_StepRunsDecodedCall :
    { silent .idle 0 with inputs := [.call rxCall, .reset] }.inputs = .call rxCall :: [.reset] ∧
      (silent .idle 0).inputs = [] := ⟨rfl, rfl⟩

theorem witness_ResetGoesIdle :
    { silent .txAwaitAck 0 with inputs := [.reset, .call rxCall] }.inputs = .reset :: [.call rxCall] := rfl

theorem witness_RecognisedBytesSelectArms :
    (∀ b ∈ [0x01#8, 0x02#8, 0x04#8, 0x18#8], (poll (some 0x06#8) true true true true).polled ≠ some b) ∧
    (∀ b ∈ [0x43#8, 0x15#8, 0x18#8], (poll none true true true true).polled ≠ some b) ∧
    (∀ b ∈ [0x06#8, 0x15#8, 0x18#8], (poll (some 0x43#8) true true true true).polled ≠ some b) := by decide

theorem witness_ResultCodesDistinct : resultCodesLegal params.resultCodes = true := by decide

theorem witness_ElapsedIsModular : params.tmoStrict = false ∧ { params with tmoStrict := true }.tmoStrict = true := ⟨rfl, rfl⟩

theorem witness_SequenceSuccessor : (254#8).toNat ≤ 254 ∧ (0#8).toNat ≤ 254 := by decide

theorem witness_RxInitStartsOrRejects :
    (silent .rxStartWait 0).ses.node ≠ .idle ∧
    ((silent .idle 0).ses.node = .idle ∧ ¬ ({ cfg with hStoreWr := false }.hClock = true ∧
      { cfg with hStoreWr := false }.hWriter = true ∧ { cfg with hStoreWr := false }.hReader = true ∧
      { cfg with hStoreWr := false }.hStoreWr = true)) ∧
    (cfg.hClock = true ∧ cfg.hWriter = true ∧ cfg.hReader = true ∧ cfg.hStoreWr = true) := by decide

theorem witness_TxInitStartsOrRejects :
    (silent .txAwaitAck 0).ses.node ≠ .idle ∧
    ((silent .idle 0).ses.node = .idle ∧ ¬ ({ cfg with hStoreRd := false }.hClock = true ∧
      { cfg with hStoreRd := false }.hWriter = true ∧ { cfg with hStoreRd := false }.hReader = true ∧
      { cfg with hStoreRd := false }.hStoreRd = true)) ∧
    (cfg.hClock = true ∧ cfg.hWriter = true ∧ cfg.hReader = true ∧ cfg.hStoreRd = true ∧ cfg.pktHint = 128) ∧
    ({ cfg with pktHint := 1024 }.pktHint = 1024) ∧
    ({ cfg with pktHint := 129 }.pktHint ≠ 128 ∧ { cfg with pktHint := 129 }.pktHint ≠ 1024) := by decide

theorem witness_IdleStepAnswersIdleError : (silent .idle 0).ses.node = .idle := rfl

theorem witness_WrongDirectionRefused :
    (silent .txAwaitStart 0).ses.node.isTx = true ∧ (silent .rxStartWait 0).ses.node.isRx = true := ⟨rfl, rfl⟩

theorem witness_ExactlyOneArmRuns :
    (silent .rxStartWait 0).selectRx = .next .start ∧ (silent .idle 0).selectTx = .next .idle := ⟨rfl, rfl⟩

theorem witness_BrokenReaderRefused_asked :
    { polling .rxAwaitHeader 0x01#8 0 with ans := { now := 0, deliver := 2, avail := 0, stored := 0 } }.ans.deliver > 1 := by
  decide

theorem witness_BrokenReaderRefused_buffered :
    { silent .txAwaitAck 0 with ans := { now := 0, deliver := 1, avail := 0, stored := 0 } }.ans.deliver >
      (silent .txAwaitAck 0).inbound.length := by decide

/-- A body step whose reader answers one byte more than it was asked for. -/
def greedy : State := { body abcCrc 0 3 with ans := { now := 0, deliver := 133, avail := 0, stored := 3 } }

theorem witness_BrokenReaderRefused_body :
    greedy.ses.node = .rxAwaitBody ∧ greedy.ses.buf[0] = 0x01#8 ∧ greedy.request ≠ 0 ∧
      greedy.ans.deliver > greedy.request := by decide +kernel

theorem witness_ShortStoreAccessRefused_write :
    (body abcCrc 0 2).BodyStep ∧ (body abcCrc 0 2).accumulate.FrameInSequence ∧
      (body abcCrc 0 2).accumulate.integrityOk = true ∧ 0 < (body abcCrc 0 2).remaining ∧
      (body abcCrc 0 2).ans.stored ≠ 0 ∧ (body abcCrc 0 2).ans.stored ≠ (body abcCrc 0 2).chunk (body abcCrc 0 2).frameSize :=
  ⟨⟨rfl, .inl (by decide +kernel), .inr (by decide +kernel)⟩, ⟨by decide +kernel, by decide +kernel, by decide +kernel⟩, by decide +kernel, by decide +kernel, by decide +kernel, by decide +kernel⟩

theorem witness_ShortStoreAccessRefused_read :
    (sender 0 1).ses.node = .txSendPacket ∧ (sender 0 1).cfg.pktHint = 128 ∧ 0 < (sender 0 1).remaining ∧
      (sender 0 1).ans.stored ≠ 0 ∧ (sender 0 1).ans.stored ≠ (sender 0 1).chunk (sender 0 1).cfg.pktHint := by
  decide +kernel

theorem witness_RxStartSolicits : (silent .rxStartWait 0).ses.node = .rxStartWait := rfl

theorem witness_HeaderMarkerOpensFrame :
    (polling .rxAwaitHeader 0x01#8 0).ses.node = .rxAwaitHeader ∧ (polling .rxAwaitHeader 0x01#8 0).Polls 0x01#8 ∧
      (polling .rxAwaitHeader 0x02#8 0).Polls 0x02#8 := ⟨rfl, ⟨rfl, rfl⟩, ⟨rfl, rfl⟩⟩

theorem witness_HeaderEotEndsSession :
    (polling .rxAwaitHeader 0x04#8 0).ses.node = .rxAwaitHeader ∧ (polling .rxAwaitHeader 0x04#8 0).Polls 0x04#8 :=
  ⟨rfl, ⟨rfl, rfl⟩⟩

theorem witness_PeerCancelEndsSession :
    ((polling .rxAwaitHeader 0x18#8 0).ses.node = .rxAwaitHeader ∧ (polling .rxAwaitHeader 0x18#8 0).Polls 0x18#8) ∧
    ((polling .txAwaitStart 0x18#8 0).ses.node = .txAwaitStart ∧ (polling .txAwaitStart 0x18#8 0).Polls 0x18#8) ∧
    ((polling .txAwaitAck 0x18#8 0).ses.node = .txAwaitAck ∧ (polling .txAwaitAck 0x18#8 0).Polls 0x18#8) :=
  ⟨⟨rfl, rfl, rfl⟩, ⟨rfl, rfl, rfl⟩, ⟨rfl, rfl, rfl⟩⟩

/-- In the last millisecond before the timeout, with no byte and with an unrecognised one. -/
theorem witness_WaitingChangesNoRegister :
    tmoExpired (silent .rxAwaitHeader 2999).par ((silent .rxAwaitHeader 2999).elapsed 2999) (silent .rxAwaitHeader 2999).cfg.ackTimeoutMs = false ∧
    (silent .rxAwaitHeader 2999).PollsNoneOf [0x01#8, 0x02#8, 0x04#8, 0x18#8] ∧
    (polling .txAwaitStart 0x06#8 2999).PollsNoneOf [0x43#8, 0x15#8, 0x18#8] ∧
    (polling .txAwaitAck 0x43#8 2999).PollsNoneOf [0x06#8, 0x15#8, 0x18#8] :=
  ⟨by decide, .inl rfl, .inr ⟨0x06#8, ⟨rfl, rfl⟩, by decide⟩, .inr ⟨0x43#8, ⟨rfl, rfl⟩, by decide⟩⟩

/-- At the millisecond the timeout runs out: one retry left, none left, a marker seen. -/
theorem witness_HeaderTimeout :
    (silent .rxAwaitHeader 3000).ses.node = .rxAwaitHeader ∧
    (silent .rxAwaitHeader 3000).PollsNoneOf [0x01#8, 0x02#8, 0x04#8, 0x18#8] ∧
    tmoExpired (silent .rxAwaitHeader 3000).par ((silent .rxAwaitHeader 3000).elapsed 3000) (silent .rxAwaitHeader 3000).cfg.ackTimeoutMs = true ∧
    (onSession ({ · with starts := 2 }) (silent .rxAwaitHeader 3000)).ses.starts.toNat < cfg.startRetries.toNat ∧
    cfg.startRetries.toNat ≤ (onSession ({ · with starts := 3 }) (silent .rxAwaitHeader 3000)).ses.starts.toNat ∧
    (silent .rxAwaitHeader 3000).ses.hdrSeen = false ∧
    (onSession ({ · with hdrSeen := true }) (silent .rxAwaitHeader 3000)).ses.hdrSeen = true :=
  ⟨rfl, .inl rfl, by decide, by decide, by decide, rfl, rfl⟩

/-- Nothing taken yet; and one byte short of the whole frame. -/
theorem witness_AccumulationFillsFrame :
    (body abcCrc 0 3).BodyStep ∧ (body abcCrc 0 3).ses.rxCount.toNat < (body abcCrc 0 3).bodyLength ∧
      (onSession ({ · with rxCount := 131 }) (body (abcCrc.take 2) 0 3)).BodyStep ∧
      (onSession ({ · with rxCount := 131 }) (body (abcCrc.take 2) 0 3)).ses.rxCount.toNat <
        (onSession ({ · with rxCount := 131 }) (body (abcCrc.take 2) 0 3)).bodyLength :=
  ⟨⟨rfl, .inl (by decide +kernel), .inr (by decide +kernel)⟩, by decide +kernel,
    ⟨rfl, .inl (by decide +kernel), .inr (by decide +kernel)⟩, by decide +kernel⟩

/-- The two parts make up the whole frame. -/
theorem witness_AccumulationSplitsAgree :
    (body abcCrc 0 3).ses.node = .rxAwaitBody ∧ (body abcCrc 0 3).ses.buf[0] = 0x01#8 ∧
      (body abcCrc 0 3).cfg.hAvail = false ∧
      (body abcCrc 0 3).ses.rxCount.toNat + (50 + 82) = (body abcCrc 0 3).bodyLength ∧
      50 + 82 ≤ (body abcCrc 0 3).inbound.length := by decide +kernel

/-- One byte short of the frame, in the last millisecond of its timeout and in the one after. -/
def short (now : Word32) : State :=
  { body abcCrc now 3 with ans := { now := now, deliver := 131, avail := 0, stored := 3 } }

theorem witness_IncompleteBodyWaitsOrNaks :
    (short 999).BodyStep ∧ (short 999).accumulate.ses.rxCount.toNat + 1 = (short 999).bodyLength ∧
      tmoExpired (short 999).par ((short 999).elapsed (short 999).ans.now) (short 999).cfg.pktTimeoutMs = false ∧
      tmoExpired (short 1000).par ((short 1000).elapsed (short 1000).ans.now) (short 1000).cfg.pktTimeoutMs = true :=
  ⟨⟨rfl, .inl (by decide +kernel), .inr (by decide +kernel)⟩, by decide +kernel, by decide +kernel, by decide +kernel⟩

/-- The right sequence number with a wrong complement, and a wrong one with the right complement. -/
def badComplement : List Byte := [0x01, 0x01, 0xFF] ++ List.replicate 130 0x00#8

theorem witness_MismatchIsFatal :
    (body seq2Crc 0 3).BodyStep ∧ (body seq2Crc 0 3).bodyLength ≤ (body seq2Crc 0 3).accumulate.ses.rxCount.toNat ∧
    (body seq2Crc 0 3).accumulate.ses.buf[1] ≠ nextSeq (body seq2Crc 0 3).par (body seq2Crc 0 3).ses.seqLast ∧
    (body badComplement 0 3).BodyStep ∧
    (body badComplement 0 3).bodyLength ≤ (body badComplement 0 3).accumulate.ses.rxCount.toNat ∧
    (body badComplement 0 3).accumulate.ses.buf[2] ≠ 0xFF#8 - (body badComplement 0 3).accumulate.ses.buf[1] :=
  ⟨⟨rfl, .inl (by decide +kernel), .inr (by decide +kernel)⟩, by decide +kernel, by decide +kernel,
    ⟨rfl, .inl (by decide +kernel), .inr (by decide +kernel)⟩, by decide +kernel, by decide +kernel⟩

theorem witness_BadIntegrityAsksAgain :
    (body abcBad 0 3).BodyStep ∧ (body abcBad 0 3).accumulate.FrameInSequence ∧
    slice (body abcBad 0 3).accumulate.ses.buf (3 + (body abcBad 0 3).frameSize) (ilen (body abcBad 0 3).ses.mode)
      ≠ integrityBytes params (body abcBad 0 3).ses.mode
          (slice (body abcBad 0 3).accumulate.ses.buf 3 (body abcBad 0 3).frameSize) :=
  ⟨⟨rfl, .inl (by decide +kernel), .inr (by decide +kernel)⟩,
    ⟨by decide +kernel, by decide +kernel, by decide +kernel⟩, by decide +kernel⟩

/-- The total reached. -/
def full : State := { body abcCrc 0 0 with cfg := { cfg with total := 0 } }

theorem witness_OverrunEndsInSuccess :
    full.BodyStep ∧ full.accumulate.FrameInSequence ∧ full.accumulate.integrityOk = true ∧
      full.cfg.total = full.ses.xferred :=
  ⟨⟨rfl, .inl (by decide +kernel), .inr (by decide +kernel)⟩,
    ⟨by decide +kernel, by decide +kernel, by decide +kernel⟩, by decide +kernel, by decide +kernel⟩

theorem witness_StoreFailureIsFatal :
    (body abcCrc 0 0).BodyStep ∧ (body abcCrc 0 0).accumulate.FrameInSequence ∧
      (body abcCrc 0 0).accumulate.integrityOk = true ∧
      (body abcCrc 0 0).ses.xferred.toNat < (body abcCrc 0 0).cfg.total.toNat ∧ (body abcCrc 0 0).ans.stored = 0 :=
  ⟨⟨rfl, .inl (by decide +kernel), .inr (by decide +kernel)⟩, ⟨by decide +kernel, by decide +kernel, by decide +kernel⟩, by decide +kernel, by decide +kernel, rfl⟩

theorem witness_AcceptDeliversPacket :
    (body abcCrc 0 3).BodyStep ∧ (body abcCrc 0 3).accumulate.FrameInSequence ∧
      (body abcCrc 0 3).accumulate.integrityOk = true ∧
      (body abcCrc 0 3).ses.xferred.toNat < (body abcCrc 0 3).cfg.total.toNat ∧
      (body abcCrc 0 3).ans.stored = min ((body abcCrc 0 3).cfg.total.toNat - (body abcCrc 0 3).ses.xferred.toNat)
        (body abcCrc 0 3).frameSize :=
  ⟨⟨rfl, .inl (by decide +kernel), .inr (by decide +kernel)⟩, ⟨by decide +kernel, by decide +kernel, by decide +kernel⟩, by decide +kernel, by decide +kernel, by decide +kernel⟩

theorem witness_SolicitationFixesMode :
    (polling .txAwaitStart 0x43#8 0).ses.node = .txAwaitStart ∧ (polling .txAwaitStart 0x43#8 0).Polls 0x43#8 ∧
      (polling .txAwaitStart 0x15#8 0).Polls 0x15#8 := ⟨rfl, ⟨rfl, rfl⟩, ⟨rfl, rfl⟩⟩

/-- The last interval but one, and the last. -/
theorem witness_StartIntervalExpires :
    (silent .txAwaitStart 3000).ses.node = .txAwaitStart ∧
    (silent .txAwaitStart 3000).PollsNoneOf [0x43#8, 0x15#8, 0x18#8] ∧
    tmoExpired (silent .txAwaitStart 3000).par ((silent .txAwaitStart 3000).elapsed 3000) (silent .txAwaitStart 3000).cfg.ackTimeoutMs = true ∧
    (silent .txAwaitStart 3000).ses.starts.toNat + 1 < cfg.startRetries.toNat ∧
    cfg.startRetries.toNat ≤ (onSession ({ · with starts := 2 }) (silent .txAwaitStart 3000)).ses.starts.toNat + 1 :=
  ⟨rfl, .inl rfl, by decide, by decide, by decide⟩

theorem witness_NothingLeftEndsTransmission :
    (onSession ({ · with xferred := 3 }) (sender 0 0)).ses.node = .txSendPacket ∧ (sender 0 0).cfg.pktHint = 128 ∧
      (onSession ({ · with xferred := 3 }) (sender 0 0)).ses.xferred = (sender 0 0).cfg.total := by decide

theorem witness_SourceFailureIsFatal :
    (sender 0 0).ses.node = .txSendPacket ∧ (sender 0 0).cfg.pktHint = 128 ∧
      (sender 0 0).ses.xferred.toNat < (sender 0 0).cfg.total.toNat ∧ (sender 0 0).ans.stored = 0 := by decide

/-- A short packet, and a long one that is filled exactly. -/
theorem witness_SendEmitsFrame :
    (sender 0 3).ses.node = .txSendPacket ∧ (sender 0 3).cfg.pktHint = 128 ∧
    (sender 0 3).ses.xferred.toNat < (sender 0 3).cfg.total.toNat ∧
    (sender 0 3).ans.stored = min 128 ((sender 0 3).cfg.total.toNat - (sender 0 3).ses.xferred.toNat) ∧
    { sender 0 1024 with cfg := { cfg with total := 1024, pktHint := 1024 } }.ans.stored = min 1024 (1024 - 0) := by
  decide +kernel

theorem witness_LastAckEndsTransmission :
    (polling .txAwaitAck 0x06#8 0).ses.node = .txAwaitAck ∧ (polling .txAwaitAck 0x06#8 0).Polls 0x06#8 ∧
      (polling .txAwaitAck 0x06#8 0).ses.xferred.toNat + min (polling .txAwaitAck 0x06#8 0).cfg.pktHint
        ((polling .txAwaitAck 0x06#8 0).cfg.total.toNat - (polling .txAwaitAck 0x06#8 0).ses.xferred.toNat)
        = (polling .txAwaitAck 0x06#8 0).cfg.total.toNat := ⟨rfl, ⟨rfl, rfl⟩, by decide⟩

/-- One byte left after this packet. -/
theorem witness_AckAdvancesTransmission :
    (polling .txAwaitAck 0x06#8 0).ses.node = .txAwaitAck ∧ (polling .txAwaitAck 0x06#8 0).Polls 0x06#8 ∧
      (polling .txAwaitAck 0x06#8 0).ses.xferred.toNat + cfg.pktHint < { cfg with total := 129 }.total.toNat :=
  ⟨rfl, ⟨rfl, rfl⟩, by decide⟩

theorem witness_NakResendsSamePacket :
    (polling .txAwaitAck 0x15#8 0).ses.node = .txAwaitAck ∧ (polling .txAwaitAck 0x15#8 0).Polls 0x15#8 :=
  ⟨rfl, ⟨rfl, rfl⟩⟩

theorem witness_AckTimeoutIsFatal :
    (silent .txAwaitAck 3000).ses.node = .txAwaitAck ∧
    (silent .txAwaitAck 3000).PollsNoneOf [0x06#8, 0x15#8, 0x18#8] ∧
    tmoExpired (silent .txAwaitAck 3000).par ((silent .txAwaitAck 3000).elapsed 3000) (silent .txAwaitAck 3000).cfg.ackTimeoutMs = true :=
  ⟨rfl, .inl rfl, by decide⟩

theorem witness_CrcIsFoldWithNamedValues : 15 < 16 := by decide

theorem witness_ChecksumIsSumModulo256 : [0x01#8, 0x02#8].Perm [0x02#8, 0x01#8] := .swap _ _ _

theorem witness_OneFlippedBitIsDetected : 7 < 8 := by decide

/-- The frame of `sender` and the receiver of `body`. -/
theorem witness_EmittedFrameIsAccepted :
    ∃ tx', exec .txStep (sender 6 3) = .next tx' ∧
      tx'.history = (sender 6 3).history ++ [.memRead (sender 6 3).storeAddr
        ((sender 6 3).chunk (sender 6 3).cfg.pktHint) (sender 6 3).ans.stored, .txEmit abcCrc, .now (sender 6 3).ans.now] ∧
      (sender 6 3).ses.node = .txSendPacket ∧ (body abcCrc 0 3).par = (sender 6 3).par ∧
      (body abcCrc 0 3).ses.node = .rxAwaitBody ∧
      (body abcCrc 0 3).ses.mode = (sender 6 3).ses.mode ∧ (body abcCrc 0 3).ses.seqLast = (sender 6 3).ses.seqLast ∧
      abcCrc.head? = some (body abcCrc 0 3).ses.buf[0] ∧ (body abcCrc 0 3).ses.rxCount = 0#11 ∧
      (body abcCrc 0 3).inbound = abcCrc.tail ++ [] ∧ (body abcCrc 0 3).ans.deliver = abcCrc.length - 1 ∧
      (body abcCrc 0 3).cfg.hAvail = false ∧
      (body abcCrc 0 3).ses.xferred.toNat < (body abcCrc 0 3).cfg.total.toNat ∧
      (body abcCrc 0 3).cfg.total.toNat - (body abcCrc 0 3).ses.xferred.toNat
        = (sender 6 3).cfg.total.toNat - (sender 6 3).ses.xferred.toNat ∧
      (body abcCrc 0 3).ans.stored = (sender 6 3).ans.stored := by
  obtain ⟨t, h, h'⟩ := of_look (f := (·.history)) (x := exec .txStep (sender 6 3))
    (v := [.memRead 0x08010000 3 3, .txEmit abcCrc, .now 6]) (by decide +kernel)
  exact ⟨t, h, h'.trans (by decide +kernel), by decide +kernel⟩

/-- A receiver in the middle of a session, whose next step delivers its packet. -/
theorem accepting_inv : Inv (body abcCrc 200 3) := by constructor <;> decide +kernel

theorem witness_InvariantKeptByStep :
    Inv { silent .rxAwaitHeader 0 with inputs := [.call rxCall] } ∧
      ∃ t, step { silent .rxAwaitHeader 0 with inputs := [.call rxCall] } = .next t := by
  refine ⟨by constructor <;> decide +kernel, ?_⟩
  obtain ⟨t, h, -⟩ := of_look (f := (·.res)) (x := step { silent .rxAwaitHeader 0 with inputs := [.call rxCall] })
    (v := some .cont) (by decide +kernel)
  exact ⟨t, h⟩

theorem witness_FaultsOnlyOnUnwrittenRegisters :
    ((silent .rxAwaitBody 0).ses.node = .rxAwaitBody ∧ (silent .rxAwaitBody 0).ses.buf[0] ≠ 0x01#8 ∧
      (silent .rxAwaitBody 0).ses.buf[0] ≠ 0x02#8) ∧
    (let s : State := { sender 6 3 with cfg := { cfg with pktHint := 127 } };
      s.ses.node = .txSendPacket ∧ s.cfg.pktHint ≠ 128 ∧ s.cfg.pktHint ≠ 1024) ∧
    Inv (body abcCrc 200 3) :=
  ⟨by decide +kernel, by decide +kernel, accepting_inv⟩

theorem witness_ConfigurationFrozen :
    ∃ t, exec (.rxInit { cfg with total := 9 }) (silent .idle 0) = .next t ∧ t.cfg ≠ (silent .idle 0).cfg := by
  obtain ⟨t, h, h'⟩ := of_look (f := (·.cfg)) (x := exec (.rxInit { cfg with total := 9 }) (silent .idle 0))
    (v := { cfg with total := 9 }) (by decide +kernel)
  exact ⟨t, h, by rw [h']; decide⟩

theorem witness_ClockStampWriters :
    ∃ t, exec .rxStart (silent .rxStartWait 7) = .next t ∧ t.ses.node ≠ .idle ∧
      t.ses.tLast ≠ (silent .rxStartWait 7).ses.tLast := by
  obtain ⟨t, h, h'⟩ := of_look (f := fun t => (t.ses.node, t.ses.tLast)) (x := exec .rxStart (silent .rxStartWait 7))
    (v := (.rxAwaitHeader, 7)) (by decide +kernel)
  simp only [Prod.mk.injEq] at h'
  exact ⟨t, h, by rw [h'.1]; decide, by rw [h'.2]; decide⟩

theorem witness_ReceiveTransitionRelation : ∃ t, exec .rxStep (body abcCrc 200 3) = .next t := by
  obtain ⟨t, h, -⟩ := of_look (f := (·.res)) (x := exec .rxStep (body abcCrc 200 3)) (v := some .cont) (by decide +kernel)
  exact ⟨t, h⟩

theorem witness_TransmitTransitionRelation : ∃ t, exec .txStep (sender 6 3) = .next t := by
  obtain ⟨t, h, -⟩ := of_look (f := (·.res)) (x := exec .txStep (sender 6 3)) (v := some .cont) (by decide +kernel)
  exact ⟨t, h⟩

theorem witness_CallsInOrder : ∃ t, exec .rxBodyTmo (short 1000) = .next t := by
  obtain ⟨t, h, -⟩ := of_look (f := (·.res)) (x := exec .rxBodyTmo (short 1000)) (v := some .cont) (by decide +kernel)
  exact ⟨t, h⟩

theorem witness_WritePrecedesAck :
    ∃ t, (body abcCrc 200 3).ses.node = .rxAwaitBody ∧ exec .rxStep (body abcCrc 200 3) = .next t ∧
      t.outbound = (body abcCrc 200 3).outbound ++ [0x06#8] := by
  obtain ⟨t, h, h'⟩ := of_look (f := (·.outbound)) (x := exec .rxStep (body abcCrc 200 3)) (v := [0x06#8]) (by decide +kernel)
  exact ⟨t, rfl, h, h'.trans (by decide +kernel)⟩

theorem witness_StoreChangesInsideWindow :
    Inv (body abcCrc 200 3) ∧ ∃ t, exec .rxBodyAccept (body abcCrc 200 3) = .next t ∧
      t.store.read? 0x20000002 ≠ (body abcCrc 200 3).store.read? 0x20000002 := by
  obtain ⟨t, h, h'⟩ := of_look (f := (·.store.read? 0x20000002)) (x := exec .rxBodyAccept (body abcCrc 200 3))
    (v := some 0x43#8) (by decide +kernel)
  exact ⟨accepting_inv, t, h, by rw [h']; decide +kernel⟩

theorem witness_InboundConsumedInOrder : ∃ t, exec .txStartC (polling .txAwaitStart 0x43#8 0) = .next t := by
  obtain ⟨t, h, -⟩ := of_look (f := (·.res)) (x := exec .txStartC (polling .txAwaitStart 0x43#8 0))
    (v := some .cont) (by decide +kernel)
  exact ⟨t, h⟩

/-- A receiver that has everything and polls an `EOT`. -/
def finished : State := onSession ({ · with xferred := 3, seqLast := 1, hdrSeen := true }) (polling .rxAwaitHeader 0x04#8 0)

theorem witness_SuccessMeansTotalReached_receive :
    Inv finished ∧ ∃ t, exec .rxStep finished = .next t ∧ t.res = some .success := by
  obtain ⟨t, h, h'⟩ := of_look (f := (·.res)) (x := exec .rxStep finished) (v := some .success) (by decide +kernel)
  exact ⟨by constructor <;> decide +kernel, t, h, h'⟩

theorem witness_SuccessMeansTotalReached_transmit :
    Inv (polling .txAwaitAck 0x06#8 0) ∧
      ∃ t, exec .txStep (polling .txAwaitAck 0x06#8 0) = .next t ∧ t.res = some .success := by
  obtain ⟨t, h, h'⟩ := of_look (f := (·.res)) (x := exec .txStep (polling .txAwaitAck 0x06#8 0))
    (v := some .success) (by decide +kernel)
  exact ⟨by constructor <;> decide +kernel, t, h, h'⟩

theorem witness_TerminalExactlyWhenIdle : ∃ t, exec .rxStep (polling .rxAwaitHeader 0x18#8 0) = .next t := by
  obtain ⟨t, h, -⟩ := of_look (f := (·.res)) (x := exec .rxStep (polling .rxAwaitHeader 0x18#8 0))
    (v := some .errPeerCancel) (by decide +kernel)
  exact ⟨t, h⟩

/-- The frame of sequence 1 once more after it was accepted. -/
def again : State := onSession ({ · with seqLast := 1 }) (body abcCrc 0 3)

theorem witness_DuplicatePacketIsMismatch :
    again.par.seqWrapTo = 1#8 ∧ again.BodyStep ∧ again.bodyLength ≤ again.accumulate.ses.rxCount.toNat ∧
      again.accumulate.ses.buf[1] = again.ses.seqLast :=
  ⟨rfl, ⟨rfl, .inl (by decide +kernel), .inr (by decide +kernel)⟩, by decide +kernel, by decide +kernel⟩

end Sys2Proof.Tests
end

section
/-! What one step does with each kind of next input, and the host call's step (O1). -/

namespace Sys2Proof.Machine

/-! ## One equation per next input -/

/-- R2: between host calls the engine does nothing. -/
theorem step_of_no_input {s : State} (h : s.inputs = []) : step s = .next s := by
  simp only [step, h]

/-- R230: a reset is taken off the inputs and the engine is reset. -/
theorem step_of_reset {s : State} {rest : List Input} (h : s.inputs = .reset :: rest) :
    step s = .next { s with inputs := rest }.resetEngine := by
  simp only [step, h]

/-- R2, R82: a host call is taken off the inputs and presented, and its select code's instruction
runs. -/
theorem step_of_call {s : State} {c : HostCall} {rest : List Input} (h : s.inputs = .call c :: rest) :
    step s = exec (decodeCall c.op c.operand) ({ s with inputs := rest }.accept c) := by
  simp only [step, h]

/-! ## The obligation -/

/-- Settles O1: a step is decided by the next input alone, and presenting a call changes exactly the
answers, the inbound stream and the store. -/
theorem stepRunsDecodedCall : Obligations.StepRunsDecodedCall := by
  unfold Obligations.StepRunsDecodedCall
  constructor
  · intro s c rest h
    rw [step_of_call h, State.accept]
  · intro s h
    exact step_of_no_input h

end Sys2Proof.Machine
end

section
/-! What each arm's next state keeps of the registers, arm by arm: parameters, configuration, clock
stamp and result. -/

namespace Sys2Proof.Machine

/-! ## Parameters and configuration -/

@[simp] theorem acceptPacket_par (s : State) : s.acceptPacket.par = s.par := by simp [State.acceptPacket]
@[simp] theorem acceptPacket_cfg (s : State) : s.acceptPacket.cfg = s.cfg := by simp [State.acceptPacket]
@[simp] theorem acceptPacket_store (s : State) :
    s.acceptPacket.store = s.store.writeBytes s.storeAddr s.delivered := by simp [State.acceptPacket]

@[simp] theorem acceptPacket_ses (s : State) : s.acceptPacket.ses = { s.ses with
    node := .rxAwaitHeader, xferred := s.ses.xferred + BitVec.ofNat 32 (s.chunk s.frameSize)
    seqLast := s.ses.buf[1], tLast := s.ans.now } := by simp [State.acceptPacket]

@[simp] theorem sendFrame_par (s : State) (marker : Byte) : (s.sendFrame marker).par = s.par := by
  simp [State.sendFrame]
@[simp] theorem sendFrame_cfg (s : State) (marker : Byte) : (s.sendFrame marker).cfg = s.cfg := by
  simp [State.sendFrame]

@[simp] theorem rxAfter_par (a : RxArm) (s : State) : (rxAfter a s).par = s.par := by
  cases a <;> simp [rxAfter]

@[simp] theorem rxAfter_cfg (a : RxArm) (s : State) : (rxAfter a s).cfg = s.cfg := by
  cases a <;> simp [rxAfter]

@[simp] theorem txAfter_par (a : TxArm) (marker : Byte) (s : State) : (txAfter a marker s).par = s.par := by
  cases a <;> simp [txAfter]

@[simp] theorem txAfter_cfg (a : TxArm) (marker : Byte) (s : State) : (txAfter a marker s).cfg = s.cfg := by
  cases a <;> simp [txAfter]

/-- Log 14: no instruction changes the implementation's parameters. -/
theorem exec_par {i : Instr} {s t : State} (h : exec i s = .next t) : t.par = s.par := by
  obtain ⟨c, -, h⟩ | ⟨c, -, h⟩ | ⟨a, -, h⟩ | ⟨a, -, h⟩ | ⟨a, rfl, -⟩ | ⟨a, b, rfl, -⟩ := exec_next h
  · obtain rfl | ⟨-, rfl⟩ := execRxInit_next h <;> rfl
  · obtain rfl | ⟨-, -, rfl⟩ := execTxInit_next h <;> rfl
  · obtain ⟨-, rfl, -⟩ := rxMeaning_next h
    exact rxAfter_par a s
  · obtain ⟨-, marker, rfl, -⟩ := txMeaning_next h
    exact txAfter_par a marker s
  · rfl
  · rfl

/-- Settles O50: an arm and a rejected init keep the configuration, an accepted init makes it its
operand. -/
theorem configurationFrozen : Obligations.ConfigurationFrozen := by
  unfold Obligations.ConfigurationFrozen
  intro i s t h hne
  obtain ⟨c, rfl, h⟩ | ⟨c, rfl, h⟩ | ⟨a, -, h⟩ | ⟨a, -, h⟩ | ⟨a, rfl, -⟩ | ⟨a, b, rfl, -⟩ := exec_next h
  · obtain rfl | ⟨hn, rfl⟩ := execRxInit_next h
    · exact absurd rfl hne
    · exact ⟨hn, rfl, c, rfl, .inl rfl⟩
  · obtain rfl | ⟨hn, -, rfl⟩ := execTxInit_next h
    · exact absurd rfl hne
    · exact ⟨hn, rfl, c, rfl, .inr rfl⟩
  · obtain ⟨-, rfl, -⟩ := rxMeaning_next h
    exact absurd (rxAfter_cfg a s) hne
  · obtain ⟨-, marker, rfl, -⟩ := txMeaning_next h
    exact absurd (txAfter_cfg a marker s) hne
  · exact absurd rfl hne
  · exact absurd rfl hne

/-! ## The clock stamp (R14) -/

/-- R14: the receive arms that restamp a session that goes on. -/
def stampingRx : List RxArm := [.start, .hdrSoh, .hdrStx, .bodyTmo, .bodyBadsum, .bodyAccept]

/-- R14: the transmit arms that restamp a session that goes on. -/
def stampingTx : List TxArm := [.startC, .startNak, .startTmoRetry, .sendFrame, .ackMore, .ackNak]

/-- A receive arm keeps the stamp, ends the session, or stamps with the clock's answer. -/
theorem rxAfter_tLast (a : RxArm) (s : State) :
    (rxAfter a s).ses.tLast = s.ses.tLast ∨ (rxAfter a s).ses.node = .idle ∨
      (rxAfter a s).ses.tLast = s.ans.now ∧ a ∈ stampingRx := by
  cases a <;> simp [rxAfter, stampingRx]

/-- A transmit arm keeps the stamp, ends the session, or stamps with the clock's answer. -/
theorem txAfter_tLast (a : TxArm) (marker : Byte) (s : State) :
    (txAfter a marker s).ses.tLast = s.ses.tLast ∨ (txAfter a marker s).ses.node = .idle ∨
      (txAfter a marker s).ses.tLast = s.ans.now ∧ a ∈ stampingTx := by
  cases a <;> simp [txAfter, stampingTx, State.sendFrame]

/-- Settles O51: an accepted init stamps, and an arm that goes on with another stamp is one of R14's. -/
theorem clockStampWriters : Obligations.ClockStampWriters := by
  unfold Obligations.ClockStampWriters
  intro i s t h hn ht
  obtain ⟨c, rfl, h⟩ | ⟨c, rfl, h⟩ | ⟨a, hi, h⟩ | ⟨a, hi, h⟩ | ⟨a, rfl, -⟩ | ⟨a, b, rfl, -⟩ := exec_next h
  · obtain rfl | ⟨-, rfl⟩ := execRxInit_next h
    · exact absurd rfl ht
    · exact ⟨rfl, .inl ⟨c, rfl⟩⟩
  · obtain rfl | ⟨-, -, rfl⟩ := execTxInit_next h
    · exact absurd rfl ht
    · exact ⟨rfl, .inr (.inl ⟨c, rfl⟩)⟩
  · obtain ⟨hs, rfl, -⟩ := rxMeaning_next h
    obtain h | h | ⟨hnow, ha⟩ := rxAfter_tLast a s
    · exact absurd h ht
    · exact absurd h hn
    · refine ⟨hnow, .inr (.inr ?_)⟩
      obtain rfl | rfl := hi
      · exact .inl ⟨rfl, a, ha, hs⟩
      · exact .inr (.inr (List.mem_append_left _ (List.mem_map_of_mem (f := RxArm.instr) ha)))
  · obtain ⟨hs, marker, rfl, -⟩ := txMeaning_next h
    obtain h | h | ⟨hnow, ha⟩ := txAfter_tLast a marker s
    · exact absurd h ht
    · exact absurd h hn
    · refine ⟨hnow, .inr (.inr (.inr ?_))⟩
      obtain rfl | rfl := hi
      · exact .inl ⟨rfl, a, ha, hs⟩
      · exact .inr (List.mem_append_right (stampingRx.map RxArm.instr)
          (List.mem_map_of_mem (f := TxArm.instr) ha))
  · exact absurd rfl ht
  · exact absurd rfl ht

/-! ## The result and the node (R31, R106, R107) -/

/-- `s` holds a result, terminal exactly when the node is `Idle`. -/
def State.TerminalIffIdle (s : State) : Prop :=
  ∃ r, s.res = some r ∧ (r ≠ .cont ↔ s.ses.node = .idle)

theorem answer_cont_terminalIffIdle {s : State} (hn : s.ses.node ≠ .idle) :
    (s.answer .cont).TerminalIffIdle := ⟨.cont, rfl, by simp [hn]⟩

theorem terminal_terminalIffIdle {s : State} {r : Result} (hr : r ≠ .cont) :
    (s.terminal r).TerminalIffIdle := ⟨r, rfl, by simp [hr]⟩

theorem idleError_terminalIffIdle {s : State} (hn : s.ses.node = .idle) :
    (s.answer .errIdle).TerminalIffIdle := ⟨.errIdle, rfl, by simp [hn]⟩

/-- R107: the selected receive arm answers RES_CONTINUE and a node of the session, or ends it. -/
theorem rxAfter_terminalIffIdle {s : State} {a : RxArm} (h : s.selectRx = .next a) :
    (rxAfter a s).TerminalIffIdle := by
  have hn := selectRx_home h
  cases a with
  | idle => exact idleError_terminalIffIdle hn
  | start | hdrSoh | hdrStx | hdrTmoRetry | bodyTmo | bodyBadsum | bodyAccept =>
    exact answer_cont_terminalIffIdle (by simp)
  | hdrWait | bodyWait => exact answer_cont_terminalIffIdle (by simp [hn, RxArm.home])
  | hdrEot => exact terminal_terminalIffIdle (by split <;> simp)
  | hdrCan | hdrTmoStart | hdrTmoStall | bodyMismatch | bodyOverrun | bodyStorefail =>
    exact terminal_terminalIffIdle (by simp)

/-- R107: the selected transmit arm answers RES_CONTINUE and a node of the session, or ends it. -/
theorem txAfter_terminalIffIdle {s : State} {a : TxArm} (h : s.selectTx = .next a) (marker : Byte) :
    (txAfter a marker s).TerminalIffIdle := by
  have hn := selectTx_home h
  cases a with
  | idle => exact idleError_terminalIffIdle hn
  | startC | startNak | sendFrame | ackMore | ackNak => exact answer_cont_terminalIffIdle (by simp)
  | startWait | startTmoRetry | ackWait => exact answer_cont_terminalIffIdle (by simp [hn, TxArm.home])
  | startCan | startTmoFatal | sendDone | sendStorefail | ackLast | ackCan | ackTmo =>
    exact terminal_terminalIffIdle (by simp)

/-- R31: under a numbering as the spec asks for, zero stands for RES_CONTINUE alone. -/
theorem resultCode_eq_zero_iff {p : Config.Params} (h : resultCodesLegal p.resultCodes = true) (r : Result) :
    resultCode p r = 0 ↔ r = .cont := by
  simp only [resultCodesLegal, Bool.and_eq_true, beq_iff_eq, decide_eq_true_eq, List.nodup_cons] at h
  obtain ⟨h0, hne, -⟩ := h
  rw [h0] at hne
  cases r with
  | cont => simp [resultCode, h0]
  | _ =>
    refine iff_of_false (fun e => hne ?_) (by simp)
    simp only [resultCode] at e
    simp [e]

/-- Settles O59: the step's arm answers as R107 says, and a legal numbering tells RES_CONTINUE by zero. -/
theorem terminalExactlyWhenIdle : Obligations.TerminalExactlyWhenIdle := by
  unfold Obligations.TerminalExactlyWhenIdle
  intro i s t hi h
  have ht : t.TerminalIffIdle := by
    obtain rfl | rfl := hi
    · obtain ⟨a, hs, h⟩ := execRxStep_next h
      obtain ⟨-, rfl, -⟩ := rxMeaning_next h
      exact rxAfter_terminalIffIdle hs
    · obtain ⟨a, hs, h⟩ := execTxStep_next h
      obtain ⟨-, marker, rfl, -⟩ := txMeaning_next h
      exact txAfter_terminalIffIdle hs marker
  obtain ⟨r, hr, hn⟩ := ht
  refine ⟨r, hr, hn, fun hl => ⟨resultCode s.par r, ?_, ?_⟩⟩
  · rw [State.resCode, hr, exec_par h, Option.map_some]
  · rw [Ne, resultCode_eq_zero_iff hl, ← Ne, hn]

end Sys2Proof.Machine
end

section
/-! The invariant (R32): what it asks for in each node, and that every arm, init, call and reset keeps it. -/

namespace Sys2Proof.Machine

/-! ## The invariant, node by node -/

/-- What `Inv` says of the registers in every node of a receive session (R13, R18, R32). -/
structure RxRegisters (s : State) : Prop where
  xferred_le : s.ses.xferred.toNat ≤ s.cfg.total.toNat
  accepted_latched : s.ses.seqLast ≠ 0#8 → s.ses.hdrSeen = true
  first_packet : s.par.seqWrapTo ≠ 0#8 → s.ses.seqLast = 0#8 → s.ses.xferred = 0#32
  budget_le : s.ses.starts.toNat ≤ s.budget

theorem Inv.rxRegisters {s : State} (hi : Inv s) (hr : s.ses.node.isRx = true) : RxRegisters s where
  xferred_le := hi.xferred_le (by rintro e; simp [e, Node.isRx] at hr)
  accepted_latched := hi.accepted_latched hr
  first_packet hw := hi.first_packet hw hr
  budget_le := hi.budget_le hr

/-! In a given node the clauses of `Inv` about other nodes are vacuous; what is left are the premises. -/

theorem inv_of_idle {s : State} (hw : s.store.wf = true) (hn : s.ses.node = .idle) : Inv s := by
  constructor <;> simp [hn, hw, Node.isRx, Node.isTx]

theorem inv_of_rxStartWait {s : State} (hw : s.store.wf = true) (hn : s.ses.node = .rxStartWait)
    (hr : RxRegisters s) (hlt : s.ses.starts.toNat < s.budget) : Inv s := by
  obtain ⟨hx, ha, hf, hb⟩ := hr
  constructor <;> simp [hn, hw, Node.isRx, Node.isTx] <;> assumption

theorem inv_of_rxAwaitHeader {s : State} (hw : s.store.wf = true) (hn : s.ses.node = .rxAwaitHeader)
    (hr : RxRegisters s) (hs : 1 ≤ s.ses.starts.toNat) : Inv s := by
  obtain ⟨hx, ha, hf, hb⟩ := hr
  constructor <;> simp [hn, hw, Node.isRx, Node.isTx] <;> assumption

theorem inv_of_rxAwaitBody {s : State} (hw : s.store.wf = true) (hn : s.ses.node = .rxAwaitBody)
    (hr : RxRegisters s) (hs : 1 ≤ s.ses.starts.toNat) (hm : s.ses.buf[0] = 0x01#8 ∨ s.ses.buf[0] = 0x02#8)
    (hc : s.ses.rxCount.toNat < s.bodyLength) (hl : s.ses.hdrSeen = true) : Inv s := by
  obtain ⟨hx, ha, hf, hb⟩ := hr
  constructor <;> simp [hn, hw, Node.isRx, Node.isTx] <;> assumption

theorem inv_of_txAwaitStart {s : State} (hw : s.store.wf = true) (hn : s.ses.node = .txAwaitStart)
    (hx : s.ses.xferred = 0#32) (hq : s.ses.seqLast = 0#8) (hlt : s.ses.starts.toNat < s.budget)
    (hh : s.cfg.pktHint = 128 ∨ s.cfg.pktHint = 1024) : Inv s := by
  constructor <;> simp [hn, hw, hx, hq, Node.isRx, Node.isTx] <;> assumption

theorem inv_of_txSendPacket {s : State} (hw : s.store.wf = true) (hn : s.ses.node = .txSendPacket)
    (hx : s.ses.xferred.toNat < s.cfg.total.toNat ∨ s.ses.xferred = 0#32 ∧ s.cfg.total = 0#32)
    (hh : s.cfg.pktHint = 128 ∨ s.cfg.pktHint = 1024) : Inv s := by
  have hle : s.ses.xferred.toNat ≤ s.cfg.total.toNat := by
    obtain h | ⟨h, -⟩ := hx
    · exact h.le
    · simp [h]
  constructor <;> simp [hn, hw, Node.isRx, Node.isTx] <;> assumption

theorem inv_of_txAwaitAck {s : State} (hw : s.store.wf = true) (hn : s.ses.node = .txAwaitAck)
    (hx : s.ses.xferred.toNat < s.cfg.total.toNat) (hh : s.cfg.pktHint = 128 ∨ s.cfg.pktHint = 1024) :
    Inv s := by
  have hle := hx.le
  constructor <;> simp [hn, hw, Node.isRx, Node.isTx] <;> assumption

/-- The invariant speaks of store, session, configuration and parameters alone. -/
theorem Inv.of_same_registers {s t : State} (hi : Inv s) (hw : t.store.wf = true) (hs : t.ses = s.ses)
    (hc : t.cfg = s.cfg) (hp : t.par = s.par) : Inv t := by
  cases s
  cases t
  subst hs hc hp
  exact { hi with store_wf := hw }

/-- Settles O47: reset leaves the store empty and no session active. -/
theorem invariantAtReset : Obligations.InvariantAtReset := by
  unfold Obligations.InvariantAtReset
  exact inv_of_idle Memory.wf_reset reset_node

/-! ## Receive (R102, R137, R138) -/

@[simp] theorem accumulate_budget (s : State) : s.accumulate.budget = s.budget := by simp [State.budget]

theorem RxRegisters.accumulate {s : State} (h : RxRegisters s) : RxRegisters s.accumulate := by
  obtain ⟨hx, ha, hf, hb⟩ := h
  constructor <;> simpa

/-- Adding no more than what is left of the total does not wrap (R191). -/
theorem toNat_xferred_add {s : State} (hle : s.ses.xferred.toNat ≤ s.cfg.total.toNat) {n : Nat}
    (hn : n ≤ s.remaining) : (s.ses.xferred + BitVec.ofNat 32 n).toNat = s.ses.xferred.toNat + n := by
  have ht := s.cfg.total.isLt
  unfold State.remaining at hn
  rw [BitVec.toNat_add, BitVec.toNat_ofNat]
  omega

/-- Below the budget, counting one more solicitation does not wrap. -/
theorem toNat_starts_add_one {s : State} (hlt : s.ses.starts.toNat < s.budget) :
    (s.ses.starts + 1#32).toNat = s.ses.starts.toNat + 1 := by
  have hk := s.cfg.startRetries.isLt
  unfold State.budget at hlt
  rw [BitVec.toNat_add, BitVec.toNat_ofNat]
  omega

/-- R85: a successor is 0 only where 255 is followed by 0. -/
theorem nextSeq_ne_zero {p : Config.Params} (hw : p.seqWrapTo ≠ 0#8) (q : Byte) : nextSeq p q ≠ 0#8 := by
  unfold nextSeq
  split
  · exact hw
  · bv_omega

/-- R120: the solicitation is within the budget. -/
theorem rxStart_keeps_inv {s : State} (hi : Inv s) (hn : s.ses.node = .rxStartWait) : Inv (rxAfter .start s) := by
  have hr := hi.rxRegisters (by simp [hn, Node.isRx])
  have hlt := hi.budget_lt (.inl hn)
  have hs : (rxAfter .start s).ses.starts.toNat = s.ses.starts.toNat + 1 := toNat_starts_add_one hlt
  exact inv_of_rxAwaitHeader hi.store_wf rfl
    { hr with budget_le := hs.trans_le hlt } (by omega)

/-- R121, R122: the marker opens an empty frame and sets the header latch. -/
theorem openFrame_keeps_inv {s : State} (hi : Inv s) (hn : s.ses.node = .rxAwaitHeader) {marker : Byte}
    (hm : marker = 0x01#8 ∨ marker = 0x02#8) :
    Inv (((((s.poll 1).openFrame marker).stamp).goto .rxAwaitBody).answer .cont) := by
  have hr := hi.rxRegisters (by simp [hn, Node.isRx])
  have hb : (((((s.poll 1).openFrame marker).stamp).goto .rxAwaitBody).answer .cont).ses.buf[0] = marker := by
    simp [getElem_fill]
  refine inv_of_rxAwaitBody hi.store_wf rfl { hr with accepted_latched := fun _ => rfl }
    (hi.solicited (.inl hn)) (by rwa [hb]) ?_ rfl
  simp [State.bodyLength, blen]

/-- R137: whatever a header step decides. -/
theorem header_keeps_inv {s : State} (hi : Inv s) (hn : s.ses.node = .rxAwaitHeader) :
    Inv (rxAfter (decodeHeader s.headerSignals) s) := by
  have hr := hi.rxRegisters (by simp [hn, Node.isRx])
  unfold decodeHeader
  split_ifs with hsoh hstx heot hcan hwait hstall hleft
  · exact openFrame_keeps_inv hi hn (.inl rfl)
  · exact openFrame_keeps_inv hi hn (.inr rfl)
  · exact inv_of_idle hi.store_wf rfl
  · exact inv_of_idle hi.store_wf rfl
  · exact hi.of_same_registers hi.store_wf rfl rfl rfl
  · exact inv_of_idle hi.store_wf rfl
  · refine inv_of_rxStartWait hi.store_wf rfl { hr with } ?_
    have : s.ses.starts.toNat < s.cfg.startRetries.toNat := by
      simpa [State.headerSignals, State.solicitationsLeft] using hleft
    exact lt_max_of_lt_left this
  · exact inv_of_idle hi.store_wf rfl

/-- R136: an accepted packet lies within the total, and its number is none that stands for "none yet";
`s` is the state after accumulation. -/
theorem acceptPacket_inv {s : State} (hw : s.store.wf = true) (hr : RxRegisters s)
    (hs : 1 ≤ s.ses.starts.toNat) (hl : s.ses.hdrSeen = true)
    (hq : s.ses.buf[1] = nextSeq s.par s.ses.seqLast) : Inv s.acceptPacket := by
  have hle := hr.xferred_le
  have hc : s.chunk s.frameSize ≤ s.remaining := Nat.min_le_right ..
  have hx : (s.ses.xferred + BitVec.ofNat 32 (s.chunk s.frameSize)).toNat ≤ s.cfg.total.toNat := by
    rw [toNat_xferred_add hle hc]
    unfold State.remaining at hc
    omega
  refine inv_of_rxAwaitHeader (by simpa using Memory.wf_writeBytes hw _ _) (by simp) ?_ (by simpa using hs)
  constructor
  · simpa using hx
  · intro
    simpa using hl
  · intro hp h0
    exact absurd (by simpa [hq] using h0) (nextSeq_ne_zero (p := s.par) (by simpa using hp) s.ses.seqLast)
  · simpa [State.budget] using hr.budget_le

/-- R138: whatever a body step decides. -/
theorem body_keeps_inv {s : State} (hi : Inv s) (hn : s.ses.node = .rxAwaitBody) :
    Inv (rxAfter (decodeBody s.accumulate.bodySignals) s) := by
  have hr := (hi.rxRegisters (by simp [hn, Node.isRx])).accumulate
  have hw : s.accumulate.store.wf = true := by simpa using hi.store_wf
  have hs : 1 ≤ s.accumulate.ses.starts.toNat := by simpa using hi.solicited (.inr hn)
  have hl : s.accumulate.ses.hdrSeen = true := by simpa using hi.body_latched hn
  have hm : s.accumulate.ses.buf[0] = 0x01#8 ∨ s.accumulate.ses.buf[0] = 0x02#8 := by
    simpa using hi.body_marker hn
  unfold decodeBody
  rw [← accumulate_node] at hn
  split_ifs with hopen hwait hseq hsum hover hfail
  all_goals
    simp only [rxAfter]
    generalize s.accumulate = u at *
  · have hc : u.ses.rxCount.toNat < u.bodyLength := by
      simpa [State.bodySignals, State.frameComplete] using hopen
    exact inv_of_rxAwaitBody hw hn { hr with } hs hm hc hl
  · exact inv_of_rxAwaitHeader hw rfl { hr with } hs
  · exact inv_of_idle hw rfl
  · exact inv_of_rxAwaitHeader hw rfl { hr with } hs
  · exact inv_of_idle hw rfl
  · exact inv_of_idle (Memory.wf_writeBytes hw _ _) rfl
  · have hq : u.seqOk = true := by simpa [State.bodySignals] using hseq
    exact acceptPacket_inv hw hr hs hl (of_decide_eq_true hq).1

/-- Every receive arm keeps the invariant where it is selected. -/
theorem rxAfter_keeps_inv {s : State} {a : RxArm} (hi : Inv s) (h : s.selectRx = .next a) :
    Inv (rxAfter a s) := by
  obtain ⟨hn, rfl⟩ | ⟨hn, rfl⟩ | ⟨hn, -, rfl⟩ | ⟨hn, -, -, rfl⟩ := selectRx_next h
  · exact inv_of_idle hi.store_wf hn
  · exact rxStart_keeps_inv hi hn
  · exact header_keeps_inv hi hn
  · exact body_keeps_inv hi hn

/-! ## Transmit (R103, R165 to R167) -/

/-- R150, R151: a session that starts to send has everything left. -/
theorem startSending_keeps_inv {s : State} (hi : Inv s) (hn : s.ses.node = .txAwaitStart) (m : Mode) :
    Inv (((((s.poll 1).setMode m).stamp).goto .txSendPacket).answer .cont) := by
  obtain ⟨hx, -⟩ := hi.tx_fresh hn
  refine inv_of_txSendPacket hi.store_wf rfl ?_ (hi.tx_hint (by simp [hn, Node.isTx]))
  show s.ses.xferred.toNat < s.cfg.total.toNat ∨ s.ses.xferred = 0#32 ∧ s.cfg.total = 0#32
  simp only [hx, ← BitVec.toNat_inj, BitVec.toNat_zero, true_and]
  omega

/-- R165: whatever a start step decides. -/
theorem start_keeps_inv {s : State} (hi : Inv s) (hn : s.ses.node = .txAwaitStart) (marker : Byte) :
    Inv (txAfter (decodeStart s.startSignals) marker s) := by
  obtain ⟨hx, hq⟩ := hi.tx_fresh hn
  unfold decodeStart
  split_ifs with hc hnak hcan hwait hleft
  · exact startSending_keeps_inv hi hn .crc
  · exact startSending_keeps_inv hi hn .sum
  · exact inv_of_idle hi.store_wf rfl
  · exact hi.of_same_registers hi.store_wf rfl rfl rfl
  · refine inv_of_txAwaitStart hi.store_wf hn hx hq ?_ (hi.tx_hint (by simp [hn, Node.isTx]))
    have hlt : s.ses.starts.toNat + 1 < s.cfg.startRetries.toNat := by
      simpa [State.startSignals, State.intervalsLeft] using hleft
    exact (toNat_starts_add_one (hi.budget_lt (.inr hn))).trans_lt (lt_max_of_lt_left hlt)
  · exact inv_of_idle hi.store_wf rfl

/-- R166: whatever a send step decides. -/
theorem send_keeps_inv {s : State} (hi : Inv s) (hn : s.ses.node = .txSendPacket) (marker : Byte) :
    Inv (txAfter (decodeSend s.sendSignals) marker s) := by
  unfold decodeSend
  split_ifs with hdone hfail
  · exact inv_of_idle hi.store_wf rfl
  · exact inv_of_idle hi.store_wf rfl
  · refine inv_of_txAwaitAck hi.store_wf rfl ?_ (hi.tx_hint (by simp [hn, Node.isTx]))
    show s.ses.xferred.toNat < s.cfg.total.toNat
    simp [State.sendSignals, State.chunk, State.remaining] at hdone
    exact hdone.2

/-- R160: a packet that does not complete the total leaves bytes to send. -/
theorem toNat_xferred_add_hint {s : State} (hx : s.ses.xferred.toNat < s.cfg.total.toNat)
    (hl : s.lastPacket = false) :
    (s.ses.xferred + BitVec.ofNat 32 s.cfg.pktHint).toNat < s.cfg.total.toNat := by
  have hr : s.cfg.pktHint < s.remaining := by
    have := of_decide_eq_false hl
    unfold State.chunk State.remaining at this
    unfold State.remaining
    omega
  rw [toNat_xferred_add hx.le hr.le]
  unfold State.remaining at hr
  omega

/-- R167: whatever an ack step decides. -/
theorem ack_keeps_inv {s : State} (hi : Inv s) (hn : s.ses.node = .txAwaitAck) (marker : Byte) :
    Inv (txAfter (decodeAck s.ackSignals) marker s) := by
  have hx := hi.ack_left hn
  have hh := hi.tx_hint (by simp [hn, Node.isTx])
  unfold decodeAck
  split_ifs with hack hlast hnak hcan hwait
  · exact inv_of_idle hi.store_wf rfl
  · have hmore : s.lastPacket = false := by simpa [State.ackSignals] using hlast
    exact inv_of_txSendPacket hi.store_wf rfl (.inl (toNat_xferred_add_hint hx hmore)) hh
  · exact inv_of_txSendPacket hi.store_wf rfl (.inl hx) hh
  · exact inv_of_idle hi.store_wf rfl
  · exact hi.of_same_registers hi.store_wf rfl rfl rfl
  · exact inv_of_idle hi.store_wf rfl

theorem hintLegal_iff (n : Nat) : hintLegal n = true ↔ n = 128 ∨ n = 1024 := by simp [hintLegal]

/-- Every transmit arm keeps the invariant where it is selected. -/
theorem txAfter_keeps_inv {s : State} {a : TxArm} (hi : Inv s) (h : s.selectTx = .next a) (marker : Byte) :
    Inv (txAfter a marker s) := by
  obtain ⟨hn, rfl⟩ | ⟨hn, -, rfl⟩ | ⟨hn, -, rfl⟩ | ⟨hn, -, rfl⟩ := selectTx_next h
  · exact inv_of_idle hi.store_wf hn
  · exact start_keeps_inv hi hn marker
  · exact send_keeps_inv hi hn marker
  · exact ack_keeps_inv hi hn marker

/-! ## The whole machine -/

/-- R100: a receive session opens with nothing accepted and nothing solicited. -/
theorem execRxInit_keeps_inv {c : SessionConfig} {s t : State} (hi : Inv s) (h : execRxInit c s = .next t) :
    Inv t := by
  obtain rfl | ⟨-, rfl⟩ := execRxInit_next h
  · exact hi.of_same_registers hi.store_wf rfl rfl rfl
  · refine inv_of_rxStartWait hi.store_wf rfl ?_ (by simp [State.budget])
    constructor <;> simp

/-- R101: a transmit session opens with nothing sent and a legal packet size. -/
theorem execTxInit_keeps_inv {c : SessionConfig} {s t : State} (hi : Inv s) (h : execTxInit c s = .next t) :
    Inv t := by
  obtain rfl | ⟨-, hh, rfl⟩ := execTxInit_next h
  · exact hi.of_same_registers hi.store_wf rfl rfl rfl
  · exact inv_of_txAwaitStart hi.store_wf rfl rfl rfl (by simp [State.budget]) ((hintLegal_iff _).mp hh)

/-- Every instruction keeps the invariant. -/
theorem exec_keeps_inv {i : Instr} {s t : State} (hi : Inv s) (h : exec i s = .next t) : Inv t := by
  obtain ⟨c, -, h⟩ | ⟨c, -, h⟩ | ⟨a, -, h⟩ | ⟨a, -, h⟩ | ⟨a, rfl, -⟩ | ⟨a, b, rfl, -⟩ := exec_next h
  · exact execRxInit_keeps_inv hi h
  · exact execTxInit_keeps_inv hi h
  · obtain ⟨hs, rfl, -⟩ := rxMeaning_next h
    exact rxAfter_keeps_inv hi hs
  · obtain ⟨hs, marker, rfl, -⟩ := txMeaning_next h
    exact txAfter_keeps_inv hi hs marker
  · exact hi.of_same_registers hi.store_wf rfl rfl rfl
  · exact hi.of_same_registers hi.store_wf rfl rfl rfl

/-- Presenting a host call keeps the invariant: the platform writes whole bytes (log 18). -/
theorem accept_keeps_inv {s : State} (hi : Inv s) (c : HostCall) (rest : List Input) :
    Inv ({ s with inputs := rest }.accept c) :=
  hi.of_same_registers (Memory.wf_poke hi.store_wf c.pokes) rfl rfl rfl

/-- Settles O48, by the next input: none, a reset, or a call that runs an instruction. -/
theorem invariantKeptByStep : Obligations.InvariantKeptByStep := by
  unfold Obligations.InvariantKeptByStep
  intro s t hi h
  match hin : s.inputs with
  | [] =>
    rw [step_of_no_input hin] at h
    cases h
    exact ⟨hi, rfl⟩
  | .reset :: rest =>
    rw [step_of_reset hin] at h
    cases h
    exact ⟨inv_of_idle hi.store_wf rfl, rfl⟩
  | .call c :: rest =>
    rw [step_of_call hin] at h
    have hp := exec_par h
    exact ⟨exec_keeps_inv (accept_keeps_inv hi c rest) h, hp⟩

end Sys2Proof.Machine
end

section
/-! Where a step faults (U5): the two reads of an unwritten register, and nowhere under the invariant. -/

namespace Sys2Proof.Machine

/-! ## The two faults -/

theorem selectRx_no_marker {s : State} (hn : s.ses.node = .rxAwaitBody) (h1 : s.ses.buf[0] ≠ 0x01#8)
    (h2 : s.ses.buf[0] ≠ 0x02#8) : s.selectRx = .fault .markerUnspecified := by
  simp [State.selectRx, hn, State.frameSize?, psize, SOH, STX, h1, h2]

theorem selectTx_no_hint {s : State} (hn : s.ses.node = .txSendPacket) (h1 : s.cfg.pktHint ≠ 128)
    (h2 : s.cfg.pktHint ≠ 1024) : s.selectTx = .fault .hintUnspecified := by
  simp [State.selectTx, hn, hintLegal, h1, h2]

/-- Where the selection of a receive arm faults, every receive arm does, and so does the step. -/
theorem exec_rx_fault {s : State} {f : Fault} (h : s.selectRx = .fault f) :
    exec .rxStep s = .fault f ∧ ∀ a : RxArm, exec a.instr s = .fault f := by
  refine ⟨by simp [exec, execRxStep, h], fun a => ?_⟩
  obtain ⟨body, e⟩ := rxMeaning_run a s
  rw [exec_rxArm, e]
  simp [State.runRx, h]

/-- Where the selection of a transmit arm faults, every transmit arm does, and so does the step. -/
theorem exec_tx_fault {s : State} {f : Fault} (h : s.selectTx = .fault f) :
    exec .txStep s = .fault f ∧ ∀ a : TxArm, exec a.instr s = .fault f := by
  refine ⟨by simp [exec, execTxStep, h], fun a => ?_⟩
  obtain ⟨body, e⟩ := txMeaning_run a s
  rw [exec_txArm, e]
  simp [State.runTx, h]

/-! ## No fault under the invariant -/

/-- The invariant puts a marker in the buffer wherever one is read. -/
theorem Inv.selectRx_ne_fault {s : State} (hi : Inv s) (f : Fault) : s.selectRx ≠ .fault f := by
  have hm : s.ses.node = .rxAwaitBody → s.frameSize?.isNone = false := fun hn => by
    obtain h | h := hi.body_marker hn <;> simp [State.frameSize?, h]
  unfold State.selectRx
  cases hn : s.ses.node <;> dsimp only
  case rxAwaitHeader => split <;> nofun
  case rxAwaitBody => simp only [hm hn, Bool.false_eq_true, if_false]; split <;> nofun
  all_goals nofun

/-- The invariant puts a legal packet size wherever one is read. -/
theorem Inv.selectTx_ne_fault {s : State} (hi : Inv s) (f : Fault) : s.selectTx ≠ .fault f := by
  have hh : s.ses.node = .txSendPacket → hintLegal s.cfg.pktHint = true := fun hn =>
    (hintLegal_iff _).mpr (hi.tx_hint (by simp [hn, Node.isTx]))
  unfold State.selectTx
  cases hn : s.ses.node <;> dsimp only
  case txAwaitStart | txAwaitAck => split <;> nofun
  case txSendPacket => simp only [hh hn]; nofun
  all_goals nofun

/-- A selected receive arm does not fault. -/
theorem rxMeaning_ne_fault {s : State} {a : RxArm} (h : s.selectRx = .next a) (f : Fault) :
    rxMeaning a s ≠ .fault f := by
  by_cases ha : a = .bodyAccept
  · subst ha
    rw [rxMeaning_accept h]
    split <;> nofun
  · rw [rxMeaning_selected h ha]
    nofun

/-- A selected transmit arm does not fault where the packet size has a marker. -/
theorem txMeaning_ne_fault {s : State} {a : TxArm} (h : s.selectTx = .next a)
    (hm : a = .sendFrame → ∃ marker, markerOf s.cfg.pktHint = some marker) (f : Fault) :
    txMeaning a s ≠ .fault f := by
  by_cases ha : a = .sendFrame
  · subst ha
    obtain ⟨marker, hm⟩ := hm rfl
    rw [txMeaning_send h hm]
    split <;> nofun
  · rw [txMeaning_selected h ha 0]
    nofun

theorem Inv.execRxStep_ne_fault {s : State} (hi : Inv s) (f : Fault) : execRxStep s ≠ .fault f := by
  unfold execRxStep
  split
  · next a ha => exact rxMeaning_ne_fault ha f
  · next g hg => exact absurd hg (hi.selectRx_ne_fault g)
  · nofun

theorem Inv.execTxStep_ne_fault {s : State} (hi : Inv s) (f : Fault) : execTxStep s ≠ .fault f := by
  unfold execTxStep
  split
  · next a ha =>
    refine txMeaning_ne_fault ha (fun e => ?_) f
    have hn : s.ses.node = .txSendPacket := by rw [selectTx_home ha, e]; rfl
    obtain h | h := hi.tx_hint (by simp [hn, Node.isTx]) <;> simp [h, markerOf]
  · next g hg => exact absurd hg (hi.selectTx_ne_fault g)
  · nofun

theorem execRxInit_ne_fault (c : SessionConfig) (s : State) (f : Fault) : execRxInit c s ≠ .fault f := by
  unfold execRxInit
  split_ifs <;> nofun

theorem execTxInit_ne_fault (c : SessionConfig) (s : State) (f : Fault) : execTxInit c s ≠ .fault f := by
  unfold execTxInit
  split_ifs <;> nofun

/-- No host operation faults under the invariant. -/
theorem Inv.exec_decodeCall_ne_fault {s : State} (hi : Inv s) (op : BitVec 2) (c : SessionConfig) (f : Fault) :
    exec (decodeCall op c) s ≠ .fault f := by
  unfold decodeCall
  split_ifs
  · exact execRxInit_ne_fault c s f
  · exact hi.execRxStep_ne_fault f
  · exact execTxInit_ne_fault c s f
  · exact hi.execTxStep_ne_fault f

/-- Settles O49: the two unwritten registers fault where the arm is selected, and the invariant rules
both out. -/
theorem faultsOnlyOnUnwrittenRegisters : Obligations.FaultsOnlyOnUnwrittenRegisters := by
  unfold Obligations.FaultsOnlyOnUnwrittenRegisters
  refine ⟨fun s hn h1 h2 => exec_rx_fault (selectRx_no_marker hn h1 h2),
    fun s hn h1 h2 => exec_tx_fault (selectTx_no_hint hn h1 h2), fun s hi f => ?_⟩
  match hin : s.inputs with
  | [] => rw [step_of_no_input hin]; nofun
  | .reset :: rest => rw [step_of_reset hin]; nofun
  | .call c :: rest =>
    rw [step_of_call hin]
    exact (accept_keeps_inv hi c rest).exec_decodeCall_ne_fault c.op c.operand f

end Sys2Proof.Machine
end

section
/-! Where a collaborator breaks its contract (R42 to R44): the run has no step. -/

namespace Sys2Proof.Machine

/-! ## The reader (R44) -/

theorem exec_rxStep_refused {s : State} {r : Refusal} (h : s.selectRx = .refused r) :
    exec .rxStep s = .refused r := by simp [exec, execRxStep, h]

theorem exec_txStep_refused {s : State} {r : Refusal} (h : s.selectTx = .refused r) :
    exec .txStep s = .refused r := by simp [exec, execTxStep, h]

/-- The contract fails when more is handed over than was asked for, or than is buffered. -/
theorem readerOk_eq_false {s : State} {n : Nat} (h : s.ans.deliver > n ∨ s.ans.deliver > s.inbound.length) :
    s.readerOk n = false := by
  rw [State.readerOk, decide_eq_false_iff_not]
  omega

/-- Settles O15: in each polling node the selection of an arm asks for the reader's contract first. -/
theorem brokenReaderRefused : Obligations.BrokenReaderRefused := by
  unfold Obligations.BrokenReaderRefused
  intro s
  refine ⟨fun hd => ?_, fun hn hm hreq hd => exec_rxStep_refused ?_⟩
  · have hr := readerOk_eq_false hd
    refine ⟨fun hn => exec_rxStep_refused ?_, fun hn => exec_txStep_refused ?_⟩
    · simp [State.selectRx, hn, hr]
    · obtain hn | hn := hn <;> simp [State.selectTx, hn, hr]
  · have hsize : s.frameSize?.isNone = false := by obtain h | h := hm <;> simp [State.frameSize?, h]
    simp [State.selectRx, hn, hsize, State.bodyReaderOk, hreq, readerOk_eq_false hd]

/-! ## The store accessor (R42, R43) -/

/-- R138: a good packet with bytes left to deliver, and a store that does not answer 0, select
RX.BODY.ACCEPT. -/
theorem selectRx_accept {s : State} (h : s.BodyStep) (hf : s.accumulate.FrameInSequence)
    (hsum : s.accumulate.integrityOk = true) (hleft : 0 < s.remaining) (hst : s.ans.stored ≠ 0) :
    s.selectRx = .next .bodyAccept := by
  obtain ⟨hlen, hseq⟩ := hf
  simp only [accumulate_bodyLength, accumulate_par, accumulate_seqLast] at hlen hseq
  rw [h.selectRx_cases, if_neg hlen.not_gt, if_neg (not_not_intro hseq), if_neg (by simp [hsum]),
    if_neg hleft.ne', if_neg hst]

/-- R166: bytes left to send, and a store that does not answer 0, select TX.SEND.FRAME. -/
theorem selectTx_sendFrame {s : State} (hn : s.ses.node = .txSendPacket) (hh : hintLegal s.cfg.pktHint = true)
    (hleft : 0 < s.chunk s.cfg.pktHint) (hst : s.ans.stored ≠ 0) : s.selectTx = .next .sendFrame := by
  rw [selectTx_send hn hh]
  simp [decodeSend, State.sendSignals, hleft, hst]

/-- Settles O16: the arm that asks the store is selected, and it takes no answer but the whole
length. -/
theorem shortStoreAccessRefused : Obligations.ShortStoreAccessRefused := by
  unfold Obligations.ShortStoreAccessRefused
  constructor
  · intro s h hf hsum hleft hst hn
    have hsel := selectRx_accept h hf hsum hleft hst
    exact exec_rx_both hsel (by rw [rxMeaning_accept hsel, if_neg hn])
  · intro s hnode hhint hleft hst hn
    obtain ⟨marker, hm⟩ : ∃ marker, markerOf s.cfg.pktHint = some marker := by
      obtain h | h := hhint <;> simp [h, markerOf]
    have hchunk : 0 < s.chunk s.cfg.pktHint := by unfold State.chunk; omega
    have hsel := selectTx_sendFrame hnode ((hintLegal_iff _).mpr hhint) hchunk hst
    exact exec_tx_both hsel (by rw [txMeaning_send hsel hm, if_neg hn])

end Sys2Proof.Machine
end

section
/-! The collaborator calls a step records (R54, R56). -/

namespace Sys2Proof.Machine

/-- R54: `t` adds to the history of `s` at most one call of each kind, in one of the two orders. -/
def State.AddsCallsInOrder (s t : State) : Prop :=
  ∃ avail poll store emit clock : List Event,
    (avail = [] ∨ ∃ a, avail = [.rxAvail a]) ∧
    (poll = [] ∨ ∃ n bs, poll = [.rxPoll n bs]) ∧
    (store = [] ∨ (∃ a n r, store = [.memRead a n r]) ∨ ∃ a n bs r, store = [.memWrite a n bs r]) ∧
    (emit = [] ∨ ∃ bs, emit = [.txEmit bs]) ∧
    (clock = [] ∨ clock = [.now s.ans.now]) ∧
    (t.history = s.history ++ avail ++ poll ++ store ++ emit ++ clock ∨
      store = [] ∧ t.history = s.history ++ avail ++ poll ++ clock ++ emit)

/-- R129: accumulation asks for the buffered count at most once, then polls at most once. -/
theorem bodyCalls_eq_avail_append_poll (s : State) : ∃ avail poll : List Event,
    (avail = [] ∨ ∃ a, avail = [.rxAvail a]) ∧ (poll = [] ∨ ∃ n bs, poll = [.rxPoll n bs]) ∧
      s.bodyCalls = avail ++ poll := by
  refine ⟨_, _, ?_, ?_, rfl⟩ <;> split <;> simp

/-- R136: a write of the whole chunk, the `ACK`, the clock. -/
@[simp] theorem acceptPacket_history (s : State) : s.acceptPacket.history = s.history ++
    [.memWrite s.storeAddr s.delivered.length s.delivered s.delivered.length, .txEmit [ACK], .now s.ans.now] := by
  simp [State.acceptPacket]

/-- R158: a read of the chunk, the frame, the clock. -/
@[simp] theorem sendFrame_history (s : State) (marker : Byte) : (s.sendFrame marker).history = s.history ++
    [.memRead s.storeAddr (s.chunk s.cfg.pktHint) s.ans.stored, .txEmit (s.outFrame marker), .now s.ans.now] := by
  simp [State.sendFrame]

/-- The calls of each receive arm, sorted by kind. -/
theorem rxAfter_addsCallsInOrder (a : RxArm) (s : State) : s.AddsCallsInOrder (rxAfter a s) := by
  obtain ⟨avail, poll, ha, hp, hb⟩ := bodyCalls_eq_avail_append_poll s
  cases a with
  | idle => exact ⟨[], [], [], [], [], by simp [rxAfter]⟩
  | start => exact ⟨[], [], [], [.txEmit [solicitation s.ses.mode]], [.now s.ans.now], by simp [rxAfter]⟩
  | hdrSoh | hdrStx | hdrWait | hdrTmoRetry | hdrTmoStart | hdrTmoStall =>
    exact ⟨[], [.rxPoll 1 s.polledBytes], [], [], [.now s.ans.now], by simp [rxAfter]⟩
  | hdrEot => exact ⟨[], [.rxPoll 1 s.polledBytes], [], [.txEmit [ACK]], [], by simp [rxAfter]⟩
  | hdrCan => exact ⟨[], [.rxPoll 1 s.polledBytes], [], [], [], by simp [rxAfter]⟩
  | bodyWait => exact ⟨avail, poll, [], [], [.now s.ans.now], ha, hp, by simp [rxAfter, hb]⟩
  | bodyTmo => exact ⟨avail, poll, [], [.txEmit [NAK]], [.now s.ans.now], ha, hp, by simp [rxAfter, hb]⟩
  | bodyMismatch | bodyOverrun => exact ⟨avail, poll, [], [.txEmit [CAN]], [], ha, hp, by simp [rxAfter, hb]⟩
  | bodyBadsum => exact ⟨avail, poll, [], [.txEmit [NAK]], [.now s.ans.now], ha, hp, by simp [rxAfter, hb]⟩
  | bodyStorefail =>
    exact ⟨avail, poll, [.memWrite s.storeAddr s.accumulate.delivered.length s.accumulate.delivered 0],
      [.txEmit [CAN]], [], ha, hp, by simp [rxAfter, hb]⟩
  | bodyAccept =>
    exact ⟨avail, poll, [.memWrite s.storeAddr s.accumulate.delivered.length s.accumulate.delivered
      s.accumulate.delivered.length], [.txEmit [ACK]], [.now s.ans.now], ha, hp, by simp [rxAfter, hb]⟩

/-- The calls of each transmit arm, sorted by kind. -/
theorem txAfter_addsCallsInOrder (a : TxArm) (marker : Byte) (s : State) :
    s.AddsCallsInOrder (txAfter a marker s) := by
  cases a with
  | idle => exact ⟨[], [], [], [], [], by simp [txAfter]⟩
  | startCan | ackCan => exact ⟨[], [.rxPoll 1 s.polledBytes], [], [], [], by simp [txAfter]⟩
  | startC | startNak | startWait | startTmoRetry | startTmoFatal | ackMore | ackNak | ackWait | ackTmo =>
    exact ⟨[], [.rxPoll 1 s.polledBytes], [], [], [.now s.ans.now], by simp [txAfter]⟩
  | sendDone => exact ⟨[], [], [], [.txEmit [EOT]], [], by simp [txAfter]⟩
  | sendStorefail =>
    exact ⟨[], [], [.memRead s.storeAddr (s.chunk s.cfg.pktHint) s.ans.stored], [.txEmit [CAN]], [],
      by simp [txAfter]⟩
  | sendFrame =>
    exact ⟨[], [], [.memRead s.storeAddr (s.chunk s.cfg.pktHint) s.ans.stored], [.txEmit (s.outFrame marker)],
      [.now s.ans.now], by simp [txAfter]⟩
  | ackLast => exact ⟨[], [.rxPoll 1 s.polledBytes], [], [.txEmit [EOT]], [], by simp [txAfter]⟩

theorem addsCallsInOrder_of_no_call {s t : State} (h : t.history = s.history) : s.AddsCallsInOrder t :=
  ⟨[], [], [], [], [], by simp [h]⟩

theorem addsCallsInOrder_of_clock {s t : State} (h : t.history = s.history ++ [.now s.ans.now]) :
    s.AddsCallsInOrder t := ⟨[], [], [], [], [.now s.ans.now], by simp [h]⟩

/-- Settles O54: an init reads the clock at most, an arm's calls are sorted, a micro-operation makes
none. -/
theorem callsInOrder : Obligations.CallsInOrder := by
  unfold Obligations.CallsInOrder
  intro i s t h
  obtain ⟨c, -, h⟩ | ⟨c, -, h⟩ | ⟨a, -, h⟩ | ⟨a, -, h⟩ | ⟨a, rfl, -⟩ | ⟨a, b, rfl, -⟩ := exec_next h
  · obtain rfl | ⟨-, rfl⟩ := execRxInit_next h
    · exact addsCallsInOrder_of_no_call rfl
    · exact addsCallsInOrder_of_clock rfl
  · obtain rfl | ⟨-, -, rfl⟩ := execTxInit_next h
    · exact addsCallsInOrder_of_no_call rfl
    · exact addsCallsInOrder_of_clock rfl
  · obtain ⟨-, rfl, -⟩ := rxMeaning_next h
    exact rxAfter_addsCallsInOrder a s
  · obtain ⟨-, marker, rfl, -⟩ := txMeaning_next h
    exact txAfter_addsCallsInOrder a marker s
  · exact addsCallsInOrder_of_no_call rfl
  · exact addsCallsInOrder_of_no_call rfl

/-! ## The write before the `ACK` (R56, R136) -/

@[simp] theorem length_delivered (s : State) : s.delivered.length = min (s.chunk s.frameSize) 1026 := by
  simp [State.delivered]

/-- R73: a marker stands for at least one payload byte. -/
theorem psize_pos {marker : Byte} {n : Nat} (h : psize marker = some n) : 0 < n := by
  unfold psize at h
  split_ifs at h <;> cases h <;> decide

theorem frameSize_pos {s : State} (h : s.frameSize?.isSome = true) : 0 < s.frameSize := by
  obtain ⟨n, hn⟩ := Option.isSome_iff_exists.mp h
  rw [State.frameSize, hn]
  exact psize_pos hn

/-- R138: RX.BODY.ACCEPT is selected only while bytes of the total remain. -/
theorem decodeBody_accept {g : Signals} (h : decodeBody g = .bodyAccept) : g.remaining = true := by
  unfold decodeBody at h
  split_ifs at h with _ _ _ _ hleft
  simpa using hleft

/-- An accepted packet delivers at least one byte. -/
theorem chunk_pos_of_accept {s : State} (h : s.selectRx = .next .bodyAccept) : 0 < s.chunk s.frameSize := by
  obtain ⟨-, ha⟩ | ⟨-, ha⟩ | ⟨-, -, ha⟩ | ⟨-, hm, -, ha⟩ := selectRx_next h
  · cases ha
  · cases ha
  · exact absurd (congrArg RxArm.home ha) (by rw [decodeHeader_home]; decide)
  · have hleft : 0 < s.remaining := by simpa [State.bodySignals] using decodeBody_accept ha.symm
    exact lt_min (frameSize_pos hm) hleft

/-- Of the body arms only the accepting one emits an `ACK`. -/
theorem eq_accept_of_emits_ack {s : State} {a : RxArm} (hn : a.home = .rxAwaitBody)
    (ho : (rxAfter a s).outbound = s.outbound ++ [0x06#8]) : a = .bodyAccept := by
  cases a with
  | bodyAccept => rfl
  | bodyWait | bodyTmo | bodyMismatch | bodyBadsum | bodyOverrun | bodyStorefail =>
    simp [rxAfter, NAK, CAN] at ho
  | _ => simp [RxArm.home] at hn

/-- Settles O55: the step accepted a packet, and that arm's calls are the write, the `ACK`, the
clock. -/
theorem writePrecedesAck : Obligations.WritePrecedesAck := by
  unfold Obligations.WritePrecedesAck
  intro s t hn h ho
  obtain ⟨a, hs, h⟩ := execRxStep_next h
  obtain ⟨-, rfl, -⟩ := rxMeaning_next h
  obtain rfl := eq_accept_of_emits_ack ((selectRx_home hs).symm.trans hn) ho
  have hpos := chunk_pos_of_accept hs
  refine ⟨s.bodyCalls, [.now s.ans.now], s.accumulate.delivered.length, s.accumulate.delivered, ?_, ?_, rfl⟩
  · simp [rxAfter, ACK]
  · rw [length_delivered, accumulate_chunk, accumulate_frameSize]
    omega

end Sys2Proof.Machine
end

section
/-! What a step changes of the two spaces outside the engine: the store (R41, R60) and the inbound
stream (R44). -/

namespace Sys2Proof.Machine

/-! ## The store -/

/-- Receive arms leave the store alone, but for the two body arms that write at most the packet's bytes
at the running offset. -/
theorem rxAfter_store (a : RxArm) (s : State) : (rxAfter a s).store = s.store ∨
    a.home = .rxAwaitBody ∧ ∃ bs : List Byte, bs.length ≤ s.remaining ∧
      (rxAfter a s).store = s.store.writeBytes s.storeAddr bs := by
  have hlen : s.accumulate.delivered.length ≤ s.remaining := by simp [State.chunk]
  cases a with
  | bodyStorefail =>
    exact .inr ⟨rfl, (List.range s.accumulate.delivered.length).map (Config.freeStoreByte s.free),
      by simpa using hlen, by simp [rxAfter]⟩
  | bodyAccept => exact .inr ⟨rfl, _, hlen, by simp [rxAfter]⟩
  | _ => exact .inl (by simp [rxAfter])

@[simp] theorem txAfter_store (a : TxArm) (marker : Byte) (s : State) :
    (txAfter a marker s).store = s.store := by
  cases a <;> simp [txAfter, State.sendFrame]

/-- R60: a write of at most the remaining bytes changes only addresses of the window past the running
offset. -/
theorem read?_writeBytes_window {s : State} {bs : List Byte} (hlen : bs.length ≤ s.remaining) {x : Nat}
    (h : (s.store.writeBytes s.storeAddr bs).read? x ≠ s.store.read? x) :
    ∃ k, s.ses.xferred.toNat ≤ k ∧ k < s.cfg.total.toNat ∧ x = (s.cfg.addr + BitVec.ofNat 32 k).toNat := by
  obtain ⟨i, hi, hx⟩ : ∃ i < bs.length, x = (s.storeAddr + BitVec.ofNat 32 i).toNat := by
    by_contra hout
    push Not at hout
    exact h (Memory.read?_writeBytes_outside _ _ _ _ hout)
  unfold State.remaining at hlen
  refine ⟨s.ses.xferred.toNat + i, by omega, by omega, ?_⟩
  rw [hx, State.storeAddr, BitVec.ofNat_add, BitVec.ofNat_toNat, BitVec.setWidth_eq, BitVec.add_assoc]

/-- Settles O56: an arm that writes is a body arm, and what it writes lies in the window. The
invariant is not needed: what a write may take is cut at the remaining bytes. -/
theorem storeChangesInsideWindow : Obligations.StoreChangesInsideWindow := by
  unfold Obligations.StoreChangesInsideWindow
  intro i s t x _ h hne
  obtain ⟨c, -, h⟩ | ⟨c, -, h⟩ | ⟨a, -, h⟩ | ⟨a, -, h⟩ | ⟨a, rfl, -⟩ | ⟨a, b, rfl, -⟩ := exec_next h
  · obtain rfl | ⟨-, rfl⟩ := execRxInit_next h <;> exact absurd rfl hne
  · obtain rfl | ⟨-, -, rfl⟩ := execTxInit_next h <;> exact absurd rfl hne
  · obtain ⟨hs, rfl, -⟩ := rxMeaning_next h
    obtain hst | ⟨hhome, bs, hlen, hst⟩ := rxAfter_store a s
    · exact absurd (by rw [hst]) hne
    · exact ⟨(selectRx_home hs).trans hhome, read?_writeBytes_window hlen (hst ▸ hne)⟩
  · obtain ⟨-, marker, rfl, -⟩ := txMeaning_next h
    exact absurd (by rw [txAfter_store]) hne
  · exact absurd rfl hne
  · exact absurd rfl hne

/-! ## The inbound stream -/

/-- How many bytes a step's poll takes off the inbound stream, by node. -/
def State.consumed (s : State) : Nat :=
  match s.ses.node with
  | .rxAwaitHeader | .txAwaitStart | .txAwaitAck => s.ans.deliver
  | .rxAwaitBody => if s.request = 0 then 0 else s.ans.deliver
  | .idle | .rxStartWait | .txSendPacket => 0

@[simp] theorem accumulate_inbound (s : State) : s.accumulate.inbound =
    s.inbound.drop (if s.request = 0 then 0 else s.ans.deliver) := by
  rw [accumulate_eq]
  split <;> simp [*]

theorem rxAfter_inbound {s : State} {a : RxArm} (h : s.selectRx = .next a) :
    (rxAfter a s).inbound = s.inbound.drop s.consumed := by
  have hn := selectRx_home h
  cases a <;> simp [rxAfter, State.acceptPacket, State.consumed, hn, RxArm.home]

theorem txAfter_inbound {s : State} {a : TxArm} (h : s.selectTx = .next a) (marker : Byte) :
    (txAfter a marker s).inbound = s.inbound.drop s.consumed := by
  have hn := selectTx_home h
  cases a <;> simp [txAfter, State.sendFrame, State.consumed, hn, TxArm.home]

/-- R44, R78: `k` is no more than the node of `s` may take off the inbound stream. -/
def State.MayConsume (s : State) (k : Nat) : Prop :=
  (s.ses.node = .rxAwaitHeader ∨ s.ses.node = .txAwaitStart ∨ s.ses.node = .txAwaitAck → k ≤ 1) ∧
  (s.ses.node = .rxAwaitBody → k ≤ s.need) ∧
  (s.ses.node = .idle ∨ s.ses.node = .rxStartWait ∨ s.ses.node = .txSendPacket → k = 0)

theorem mayConsume_zero (s : State) : s.MayConsume 0 := by simp [State.MayConsume]

theorem deliver_le_of_readerOk {s : State} {n : Nat} (h : s.readerOk n = true) : s.ans.deliver ≤ n :=
  (of_decide_eq_true h).1

/-- R129: a body step takes no more than the frame needs. -/
theorem consumed_le_need {s : State} (hn : s.ses.node = .rxAwaitBody) (h : s.bodyReaderOk = true) :
    s.consumed ≤ s.need := by
  simp only [State.consumed, hn]
  split_ifs with hreq
  · exact Nat.zero_le _
  · have hr : s.readerOk s.request = true := by simpa [State.bodyReaderOk, hreq] using h
    exact (deliver_le_of_readerOk hr).trans (request_le_need s)

/-- A receive arm is selected only where the reader keeps its contract. -/
theorem mayConsume_of_selectRx {s : State} {a : RxArm} (h : s.selectRx = .next a) : s.MayConsume s.consumed := by
  obtain ⟨hn, -⟩ | ⟨hn, -⟩ | ⟨hn, hr, -⟩ | ⟨hn, -, hr, -⟩ := selectRx_next h
  · simp [State.MayConsume, State.consumed, hn]
  · simp [State.MayConsume, State.consumed, hn]
  · simpa [State.MayConsume, State.consumed, hn] using deliver_le_of_readerOk hr
  · simpa [State.MayConsume, hn] using consumed_le_need hn hr

/-- A transmit arm is selected only where the reader keeps its contract. -/
theorem mayConsume_of_selectTx {s : State} {a : TxArm} (h : s.selectTx = .next a) : s.MayConsume s.consumed := by
  obtain ⟨hn, -⟩ | ⟨hn, hr, -⟩ | ⟨hn, -, -⟩ | ⟨hn, hr, -⟩ := selectTx_next h
  · simp [State.MayConsume, State.consumed, hn]
  · simpa [State.MayConsume, State.consumed, hn] using deliver_le_of_readerOk hr
  · simp [State.MayConsume, State.consumed, hn]
  · simpa [State.MayConsume, State.consumed, hn] using deliver_le_of_readerOk hr

/-- Settles O57: an arm takes what its node polls, an init and a micro-operation take nothing. -/
theorem inboundConsumedInOrder : Obligations.InboundConsumedInOrder := by
  unfold Obligations.InboundConsumedInOrder
  intro i s t h
  obtain ⟨c, -, h⟩ | ⟨c, -, h⟩ | ⟨a, -, h⟩ | ⟨a, -, h⟩ | ⟨a, rfl, -⟩ | ⟨a, b, rfl, -⟩ := exec_next h
  · obtain rfl | ⟨-, rfl⟩ := execRxInit_next h <;> exact ⟨0, rfl, mayConsume_zero s⟩
  · obtain rfl | ⟨-, -, rfl⟩ := execTxInit_next h <;> exact ⟨0, rfl, mayConsume_zero s⟩
  · obtain ⟨hs, rfl, -⟩ := rxMeaning_next h
    exact ⟨s.consumed, rxAfter_inbound hs, mayConsume_of_selectRx hs⟩
  · obtain ⟨hs, marker, rfl, -⟩ := txMeaning_next h
    exact ⟨s.consumed, txAfter_inbound hs marker, mayConsume_of_selectTx hs⟩
  · exact ⟨0, rfl, mayConsume_zero s⟩
  · exact ⟨0, rfl, mayConsume_zero s⟩

end Sys2Proof.Machine
end

section
/-! The dispatch map and the codes (30_encoding.md): which byte selects which arm, keys, result numbers,
sequence numbers, frame sizes. -/

namespace Sys2Proof.Machine

/-! ## What the dispatch map can answer in a node that polls for control bytes (R137, R165, R167) -/

/-- R137: a recognised byte has its own arm; without one the timeout, the latch and the budget decide. -/
theorem decode_rxAwaitHeader_cases (g : Signals) :
    (g.polled = some 0x01#8 ∧ decode (.rx .rxAwaitHeader g) = .ok .rxHdrSoh) ∨
    (g.polled = some 0x02#8 ∧ decode (.rx .rxAwaitHeader g) = .ok .rxHdrStx) ∨
    (g.polled = some 0x04#8 ∧ decode (.rx .rxAwaitHeader g) = .ok .rxHdrEot) ∨
    (g.polled = some 0x18#8 ∧ decode (.rx .rxAwaitHeader g) = .ok .rxHdrCan) ∨
    ((g.polled ≠ some 0x01#8 ∧ g.polled ≠ some 0x02#8 ∧ g.polled ≠ some 0x04#8 ∧ g.polled ≠ some 0x18#8) ∧
      (decode (.rx .rxAwaitHeader g) = .ok .rxHdrWait ∨ decode (.rx .rxAwaitHeader g) = .ok .rxHdrTmoRetry ∨
        decode (.rx .rxAwaitHeader g) = .ok .rxHdrTmoStart ∨
        decode (.rx .rxAwaitHeader g) = .ok .rxHdrTmoStall)) := by
  have e : decode (.rx .rxAwaitHeader g) = .ok (decodeHeader g).instr := rfl
  rw [e]
  unfold decodeHeader
  split_ifs with soh stx eot can
  · exact .inl ⟨soh, rfl⟩
  · exact .inr (.inl ⟨stx, rfl⟩)
  · exact .inr (.inr (.inl ⟨eot, rfl⟩))
  · exact .inr (.inr (.inr (.inl ⟨can, rfl⟩)))
  all_goals exact .inr (.inr (.inr (.inr ⟨⟨soh, stx, eot, can⟩, by simp [RxArm.instr]⟩)))

/-- R165: the same for the peer's solicitation. -/
theorem decode_txAwaitStart_cases (g : Signals) :
    (g.polled = some 0x43#8 ∧ decode (.tx .txAwaitStart g) = .ok .txStartC) ∨
    (g.polled = some 0x15#8 ∧ decode (.tx .txAwaitStart g) = .ok .txStartNak) ∨
    (g.polled = some 0x18#8 ∧ decode (.tx .txAwaitStart g) = .ok .txStartCan) ∨
    ((g.polled ≠ some 0x43#8 ∧ g.polled ≠ some 0x15#8 ∧ g.polled ≠ some 0x18#8) ∧
      (decode (.tx .txAwaitStart g) = .ok .txStartWait ∨ decode (.tx .txAwaitStart g) = .ok .txStartTmoRetry ∨
        decode (.tx .txAwaitStart g) = .ok .txStartTmoFatal)) := by
  have e : decode (.tx .txAwaitStart g) = .ok (decodeStart g).instr := rfl
  rw [e]
  unfold decodeStart
  split_ifs with req nak can
  · exact .inl ⟨req, rfl⟩
  · exact .inr (.inl ⟨nak, rfl⟩)
  · exact .inr (.inr (.inl ⟨can, rfl⟩))
  all_goals exact .inr (.inr (.inr ⟨⟨req, nak, can⟩, by simp [TxArm.instr]⟩))

/-- R167: the same for the peer's reply; an `ACK` has two arms. -/
theorem decode_txAwaitAck_cases (g : Signals) :
    (g.polled = some 0x06#8 ∧
      (decode (.tx .txAwaitAck g) = .ok .txAckLast ∨ decode (.tx .txAwaitAck g) = .ok .txAckMore)) ∨
    (g.polled = some 0x15#8 ∧ decode (.tx .txAwaitAck g) = .ok .txAckNak) ∨
    (g.polled = some 0x18#8 ∧ decode (.tx .txAwaitAck g) = .ok .txAckCan) ∨
    ((g.polled ≠ some 0x06#8 ∧ g.polled ≠ some 0x15#8 ∧ g.polled ≠ some 0x18#8) ∧
      (decode (.tx .txAwaitAck g) = .ok .txAckWait ∨ decode (.tx .txAwaitAck g) = .ok .txAckTmo)) := by
  have e : decode (.tx .txAwaitAck g) = .ok (decodeAck g).instr := rfl
  rw [e]
  unfold decodeAck
  split_ifs with ack last nak can
  · exact .inl ⟨ack, by simp [TxArm.instr]⟩
  · exact .inl ⟨ack, by simp [TxArm.instr]⟩
  · exact .inr (.inl ⟨nak, rfl⟩)
  · exact .inr (.inr (.inl ⟨can, rfl⟩))
  all_goals exact .inr (.inr (.inr ⟨⟨ack, nak, can⟩, by simp [TxArm.instr]⟩))

/-- Settles O4: each clause about a node is read off that node's cases; the other nodes' conditions are
not the polled byte. -/
theorem recognisedBytesSelectArms : Obligations.RecognisedBytesSelectArms := by
  unfold Obligations.RecognisedBytesSelectArms
  refine ⟨fun g => ?_, fun g o => ⟨rfl, rfl, rfl⟩⟩
  have header := decode_rxAwaitHeader_cases g
  have start := decode_txAwaitStart_cases g
  have reply := decode_txAwaitAck_cases g
  refine ⟨?_, ?_, ?_, ?_, ?_, ?_, ?_, ?_, ?_, ?_, ?_, ?_, ?_⟩
  iterate 5
    · obtain ⟨hp, h⟩ | ⟨hp, h⟩ | ⟨hp, h⟩ | ⟨hp, h⟩ | ⟨hp, h | h | h | h⟩ := header <;> simp [hp, h]
  iterate 4
    · obtain ⟨hp, h⟩ | ⟨hp, h⟩ | ⟨hp, h⟩ | ⟨hp, h | h | h⟩ := start <;> simp [hp, h]
  iterate 4
    · obtain ⟨hp, h | h⟩ | ⟨hp, h⟩ | ⟨hp, h⟩ | ⟨hp, h | h⟩ := reply <;> simp [hp, h]

/-! ## Keys and words -/

/-- Settles O3, by evaluating the dispatch map at each code and word. -/
theorem selectCodesAndWordsDecode : Obligations.SelectCodesAndWordsDecode := by
  unfold Obligations.SelectCodesAndWordsDecode
  exact ⟨fun cfg => ⟨rfl, rfl, rfl, rfl⟩, rfl, rfl, rfl, rfl, rfl⟩

/-- Settles O5: each constructor is a member of the family `RoundTrip`. -/
theorem decodeOfEncodeIsIdentity : Obligations.DecodeOfEncodeIsIdentity := by
  unfold Obligations.DecodeOfEncodeIsIdentity
  intro i
  cases i with
  | rxInit cfg => exact Laws.RoundTrip.rxInit cfg
  | rxStep => exact Laws.RoundTrip.rxStep
  | txInit cfg => exact Laws.RoundTrip.txInit cfg
  | txStep => exact Laws.RoundTrip.txStep
  | rxIdle => exact Laws.RoundTrip.rxIdle
  | txIdle => exact Laws.RoundTrip.txIdle
  | rxStart => exact Laws.RoundTrip.rxStart
  | rxHdrSoh => exact Laws.RoundTrip.rxHdrSoh
  | rxHdrStx => exact Laws.RoundTrip.rxHdrStx
  | rxHdrEot => exact Laws.RoundTrip.rxHdrEot
  | rxHdrCan => exact Laws.RoundTrip.rxHdrCan
  | rxHdrWait => exact Laws.RoundTrip.rxHdrWait
  | rxHdrTmoRetry => exact Laws.RoundTrip.rxHdrTmoRetry
  | rxHdrTmoStart => exact Laws.RoundTrip.rxHdrTmoStart
  | rxHdrTmoStall => exact Laws.RoundTrip.rxHdrTmoStall
  | rxBodyWait => exact Laws.RoundTrip.rxBodyWait
  | rxBodyTmo => exact Laws.RoundTrip.rxBodyTmo
  | rxBodyMismatch => exact Laws.RoundTrip.rxBodyMismatch
  | rxBodyBadsum => exact Laws.RoundTrip.rxBodyBadsum
  | rxBodyOverrun => exact Laws.RoundTrip.rxBodyOverrun
  | rxBodyStorefail => exact Laws.RoundTrip.rxBodyStorefail
  | rxBodyAccept => exact Laws.RoundTrip.rxBodyAccept
  | txStartC => exact Laws.RoundTrip.txStartC
  | txStartNak => exact Laws.RoundTrip.txStartNak
  | txStartCan => exact Laws.RoundTrip.txStartCan
  | txStartWait => exact Laws.RoundTrip.txStartWait
  | txStartTmoRetry => exact Laws.RoundTrip.txStartTmoRetry
  | txStartTmoFatal => exact Laws.RoundTrip.txStartTmoFatal
  | txSendDone => exact Laws.RoundTrip.txSendDone
  | txSendStorefail => exact Laws.RoundTrip.txSendStorefail
  | txSendFrame => exact Laws.RoundTrip.txSendFrame
  | txAckLast => exact Laws.RoundTrip.txAckLast
  | txAckMore => exact Laws.RoundTrip.txAckMore
  | txAckNak => exact Laws.RoundTrip.txAckNak
  | txAckCan => exact Laws.RoundTrip.txAckCan
  | txAckWait => exact Laws.RoundTrip.txAckWait
  | txAckTmo => exact Laws.RoundTrip.txAckTmo
  | sum8Clear => exact Laws.RoundTrip.sum8Clear
  | sum8Absorb b => exact Laws.RoundTrip.sum8Absorb b
  | crc16Clear => exact Laws.RoundTrip.crc16Clear
  | crc16Absorb b => exact Laws.RoundTrip.crc16Absorb b

/-! ## Result numbers (R83) -/

/-- The results in the order of R83. -/
def allResults : List Result :=
  [.cont, .success, .errConfig, .errIdle, .errStartTimeout, .errHeaderTimeout, .errAckTimeout, .errMismatch,
    .errPeerCancel, .errStore, .errEarlyEot]

theorem mem_allResults (r : Result) : r ∈ allResults := by cases r <;> decide

/-- A legal numbering repeats no number. -/
theorem nodup_resultCodes {p : Config.Params} (h : resultCodesLegal p.resultCodes = true) :
    (allResults.map (resultCode p)).Nodup := by
  rw [resultCodesLegal, Bool.and_eq_true] at h
  exact of_decide_eq_true h.2

/-- Settles O6: zero is told by `resultCode_eq_zero_iff`, and a list without repetition tells its
members apart. -/
theorem resultCodesDistinct : Obligations.ResultCodesDistinct := by
  unfold Obligations.ResultCodesDistinct
  refine ⟨fun p h => ⟨resultCode_eq_zero_iff h, fun r q e => ?_⟩, by decide, rfl⟩
  exact List.inj_on_of_nodup_map (nodup_resultCodes h) (mem_allResults r) (mem_allResults q) e

/-! ## Sequence numbers and frame sizes (R72, R73, R85) -/

/-- Settles O7: below 255 the successor does not wrap. -/
theorem sequenceSuccessor : Obligations.SequenceSuccessor := by
  unfold Obligations.SequenceSuccessor
  refine ⟨fun p q hq => ?_, fun p => rfl, rfl⟩
  have hne : q ≠ 0xFF#8 := by
    rintro rfl
    exact absurd hq (by decide)
  rw [nextSeq, if_neg hne, BitVec.toNat_add_of_lt]
  · rfl
  · exact Nat.lt_of_le_of_lt (Nat.succ_le_succ hq) (by decide)

/-- Settles O8, by evaluating the tables at their two sizes and two modes. -/
theorem frameVariants : Obligations.FrameVariants := by
  unfold Obligations.FrameVariants
  exact ⟨⟨psize_soh, psize_stx, rfl, rfl⟩, ⟨rfl, rfl, rfl, rfl⟩, ⟨rfl, rfl, rfl, rfl⟩⟩

end Sys2Proof.Machine
end

section
/-! A frame on its way from one engine to another: what the sender emits, and a receiver that is handed
it (the packet step of round trip T1). -/

namespace Sys2Proof.Machine

/-! ## A buffer that begins with a frame (R71) -/

/-- R73: the two payload sizes and their markers. -/
theorem markerOf_eq_some {size : Nat} {marker : Byte} (h : markerOf size = some marker) :
    size = 128 ∧ marker = 0x01#8 ∨ size = 1024 ∧ marker = 0x02#8 := by
  unfold markerOf at h
  split_ifs at h with h128 h1024 <;> cases h
  · exact .inl ⟨h128, rfl⟩
  · exact .inr ⟨h1024, rfl⟩

/-- R73: the two maps between markers and payload sizes agree. -/
theorem psize_of_markerOf {size : Nat} {marker : Byte} (h : markerOf size = some marker) :
    psize marker = some size := by
  obtain ⟨rfl, rfl⟩ | ⟨rfl, rfl⟩ := markerOf_eq_some h <;> rfl

/-- R16, R72: the longest body fits the packet buffer behind its marker. -/
theorem blen_le_of_markerOf {size : Nat} {marker : Byte} (h : markerOf size = some marker) (m : Mode) :
    blen size m ≤ 1028 := by
  have := ilen_le m
  unfold blen
  obtain ⟨rfl, -⟩ | ⟨rfl, -⟩ := markerOf_eq_some h <;> omega

/-- Bytes put behind the marker make a run with it. -/
theorem cons_isPrefix_fill (b : Buf) {bs : List Byte} (h : bs.length ≤ 1028) :
    b[0] :: bs <+: (fill b 1 bs).toList := by
  have hb : b.toList.take 1 = [b[0]] := by
    rw [List.take_one, List.head?_eq_getElem?, List.getElem?_eq_getElem (by simp), Vector.getElem_toList]
    rfl
  rw [fill_toList, hb, List.take_append, List.take_of_length_le (Nat.succ_le_succ h)]
  exact ⟨_, rfl⟩

/-- What the buffer begins with stands at its first offsets. -/
theorem getElem_of_isPrefix {b : Buf} {f : List Byte} (h : f <+: b.toList) {i : Nat} (hf : i < f.length)
    (hb : i < 1029) : b[i] = f[i] := by
  rw [h.getElem hf, Vector.getElem_toList]

/-- R71: the buffer begins with the frame of `payload`, in the session's mode. -/
def State.HoldsFrame (s : State) (marker seq : Byte) (payload : List Byte) : Prop :=
  buildFrame s.par marker seq s.ses.mode payload <+: s.ses.buf.toList

section HoldsFrame

variable {s : State} {marker seq : Byte} {payload : List Byte}

/-- The buffer written out: the frame's fields, then what earlier frames left (R71; log 28). -/
theorem State.HoldsFrame.toList_eq (h : s.HoldsFrame marker seq payload) :
    ∃ later, s.ses.buf.toList = marker :: seq :: complement seq ::
      (payload ++ (integrityBytes s.par s.ses.mode payload ++ later)) := by
  obtain ⟨later, h⟩ := h
  exact ⟨later, by simp [← h, buildFrame]⟩

theorem State.HoldsFrame.header (h : s.HoldsFrame marker seq payload) :
    s.ses.buf[0] = marker ∧ s.ses.buf[1] = seq ∧ s.ses.buf[2] = complement seq := by
  have hlen : 2 < (buildFrame s.par marker seq s.ses.mode payload).length := by
    rw [length_buildFrame, flen]
    omega
  exact ⟨getElem_of_isPrefix h (by omega) (by omega), getElem_of_isPrefix h (by omega) (by omega),
    getElem_of_isPrefix h hlen (by omega)⟩

theorem State.HoldsFrame.slice_payload (h : s.HoldsFrame marker seq payload) {n : Nat} (hn : n ≤ payload.length) :
    slice s.ses.buf 3 n = payload.take n := by
  obtain ⟨later, h⟩ := h.toList_eq
  simp [slice, h, List.take_append_of_le_length hn]

/-- R187: what the sender put in the integrity field is what the receiver computes. -/
theorem State.HoldsFrame.integrityOk (h : s.HoldsFrame marker seq payload) (hsize : s.frameSize = payload.length) :
    s.integrityOk = true := by
  have hpay : s.payload = payload := by
    rw [State.payload, hsize, h.slice_payload le_rfl, List.take_length]
  have hfield : s.integrityField = integrityBytes s.par s.ses.mode payload := by
    obtain ⟨later, h⟩ := h.toList_eq
    rw [State.integrityField, hsize, slice, h, ← List.drop_drop]
    simp
  rw [State.integrityOk, hpay, hfield, beq_self_eq_true]

end HoldsFrame

/-! ## The state after an accepted packet (R136) -/

@[simp] theorem acceptPacket_inbound (s : State) : s.acceptPacket.inbound = s.inbound := rfl

@[simp] theorem acceptPacket_res (s : State) : s.acceptPacket.res = some .cont := rfl

/-! ## The receiver is handed the rest of a frame (R129, R132, R136) -/

/-- A body step with the marker of the frame of `payload` taken and nothing counted yet, whose one poll
hands over the rest of that frame; `rest` stands behind it in the stream. -/
structure State.HandedFrame (s : State) (marker seq : Byte) (payload rest : List Byte) : Prop where
  node : s.ses.node = .rxAwaitBody
  size : markerOf payload.length = some marker
  marker_taken : s.ses.buf[0] = marker
  count_zero : s.ses.rxCount = 0#11
  inbound : s.inbound = (buildFrame s.par marker seq s.ses.mode payload).tail ++ rest
  deliver : s.ans.deliver = blen payload.length s.ses.mode
  avail : s.cfg.hAvail = true → blen payload.length s.ses.mode ≤ s.ans.avail

/-- R72: `BLEN` bytes of a frame follow its marker. -/
theorem length_tail_buildFrame (p : Config.Params) (marker seq : Byte) (m : Mode) (d : List Byte) :
    (buildFrame p marker seq m d).tail.length = blen d.length m := by
  rw [List.length_tail, length_buildFrame, flen, blen]
  omega

namespace State.HandedFrame

variable {s : State} {marker seq : Byte} {payload rest : List Byte}

theorem frameSize (h : s.HandedFrame marker seq payload rest) : s.frameSize = payload.length := by
  simp [State.frameSize, State.frameSize?, h.marker_taken, psize_of_markerOf h.size]

theorem bodyLength (h : s.HandedFrame marker seq payload rest) :
    s.bodyLength = blen payload.length s.ses.mode := by
  rw [State.bodyLength, h.frameSize]

theorem bodyLength_le (h : s.HandedFrame marker seq payload rest) : s.bodyLength ≤ 1028 :=
  h.bodyLength ▸ blen_le_of_markerOf h.size s.ses.mode

/-- R129: the whole rest of the frame is asked for. -/
theorem request (h : s.HandedFrame marker seq payload rest) : s.request = s.ans.deliver := by
  have hneed : s.need = s.ans.deliver := by simp [State.need, h.bodyLength, h.count_zero, h.deliver]
  rw [State.request, hneed]
  split_ifs with hav
  · exact min_eq_right (h.deliver ▸ h.avail hav)
  · rfl

theorem request_ne_zero (h : s.HandedFrame marker seq payload rest) : s.request ≠ 0 := by
  rw [h.request, h.deliver, blen]
  omega

theorem bodyStep (h : s.HandedFrame marker seq payload rest) : s.BodyStep := by
  have hmarker : s.ses.buf[0] = 0x01#8 ∨ s.ses.buf[0] = 0x02#8 :=
    h.marker_taken ▸ (markerOf_eq_some h.size).imp And.right And.right
  refine ⟨h.node, hmarker, .inr ⟨h.request.ge, ?_⟩⟩
  rw [h.inbound, h.deliver, List.length_append, length_tail_buildFrame]
  exact Nat.le_add_right _ _

theorem bodyBytes (h : s.HandedFrame marker seq payload rest) :
    s.bodyBytes = (buildFrame s.par marker seq s.ses.mode payload).tail := by
  rw [State.bodyBytes, if_neg h.request_ne_zero, State.polledBytes, h.inbound, h.deliver,
    ← length_tail_buildFrame s.par marker seq, List.take_left]

theorem accumulate_inbound (h : s.HandedFrame marker seq payload rest) : s.accumulate.inbound = rest := by
  rw [Machine.accumulate_inbound, if_neg h.request_ne_zero, h.inbound, h.deliver,
    ← length_tail_buildFrame s.par marker seq, List.drop_left]

/-- After accumulation the whole frame stands in the buffer. -/
theorem holdsFrame (h : s.HandedFrame marker seq payload rest) : s.accumulate.HoldsFrame marker seq payload := by
  have hlen : s.bodyBytes.length ≤ 1028 := by
    rw [h.bodyBytes, length_tail_buildFrame, ← h.bodyLength]
    exact h.bodyLength_le
  have := cons_isPrefix_fill s.ses.buf hlen
  rw [h.marker_taken] at this
  simpa [State.HoldsFrame, accumulate_eq, h.bodyBytes, h.count_zero, buildFrame] using this

/-- The frame is complete (R138), and in sequence where its number is the expected one (R132). -/
theorem frameInSequence (h : s.HandedFrame marker seq payload rest) (hseq : seq = nextSeq s.par s.ses.seqLast) :
    s.accumulate.FrameInSequence := by
  obtain ⟨-, h1, h2⟩ := h.holdsFrame.header
  have hcount := (accumulate_rxCount s h.bodyLength_le (by simp [h.count_zero, h.bodyLength, blen])
    h.bodyStep.2.2).1
  refine ⟨?_, by simpa [h1] using hseq, by rw [h2, h1, complement]⟩
  rw [hcount, h.bodyBytes, length_tail_buildFrame, accumulate_bodyLength, h.bodyLength]
  exact Nat.le_add_left _ _

/-- R136: the frame of the expected number is accepted, where bytes remain and the store takes the
chunk. -/
theorem exec_rxStep (h : s.HandedFrame marker seq payload rest) (hseq : seq = nextSeq s.par s.ses.seqLast)
    (hleft : 0 < s.remaining) (hstored : s.ans.stored = s.chunk payload.length) :
    exec .rxStep s = .next s.accumulate.acceptPacket := by
  have hpos : s.ans.stored ≠ 0 := by
    have := psize_pos (psize_of_markerOf h.size)
    unfold State.chunk at hstored
    omega
  have hsel := selectRx_accept h.bodyStep (h.frameInSequence hseq)
    (h.holdsFrame.integrityOk (by rw [accumulate_frameSize, h.frameSize])) hleft hpos
  rw [exec_rxStep_selected hsel, exec_rxArm, rxMeaning_accept hsel, h.frameSize, if_pos hstored]
  rfl

/-- R136: what is written is the payload's first bytes, as many as remain. -/
theorem delivered (h : s.HandedFrame marker seq payload rest) :
    s.accumulate.delivered = payload.take (s.chunk payload.length) := by
  rw [State.delivered, accumulate_chunk, accumulate_frameSize, h.frameSize,
    h.holdsFrame.slice_payload (n := s.chunk payload.length) (min_le_left _ _)]

/-- R49, R136: byte `j` of the payload stands at the running offset plus `j`. -/
theorem read?_accepted (h : s.HandedFrame marker seq payload rest) {j : Nat} (hj : j < s.chunk payload.length) :
    s.accumulate.acceptPacket.store.read? (s.storeAddr + BitVec.ofNat 32 j).toNat = payload[j]? := by
  have hsize : s.chunk payload.length ≤ payload.length := min_le_left _ _
  have hfits : payload.length ≤ 1028 := by
    have := blen_le_of_markerOf h.size s.ses.mode
    unfold blen at this
    omega
  have hlen : s.accumulate.delivered.length = s.chunk payload.length := by
    rw [h.delivered, List.length_take_of_le hsize]
  rw [acceptPacket_store, accumulate_storeAddr,
    Memory.read?_writeBytes_inside _ _ _ (by omega) j (by omega), ← List.getElem?_eq_getElem, h.delivered,
    List.getElem?_take_of_lt hj]

end State.HandedFrame

/-! ## The sender -/

/-- A step that reads its chunk, emits a frame and stamps the clock is TX.SEND.FRAME (R156 to R158). -/
theorem sendFrame_of_history {s t : State} {frame : List Byte} (hn : s.ses.node = .txSendPacket)
    (h : exec .txStep s = .next t) (hh : t.history = s.history ++
      [.memRead s.storeAddr (s.chunk s.cfg.pktHint) s.ans.stored, .txEmit frame, .now s.ans.now]) :
    ∃ marker, markerOf s.cfg.pktHint = some marker ∧ s.ans.stored = s.chunk s.cfg.pktHint ∧
      frame = s.outFrame marker := by
  obtain ⟨a, hs, h⟩ := execTxStep_next h
  obtain ⟨-, marker, rfl, hsend⟩ := txMeaning_next h
  have hhome := (selectTx_home hs).symm.trans hn
  cases a with
  | sendFrame =>
    obtain ⟨hm, hst⟩ := hsend rfl
    exact ⟨marker, hm, hst, by simpa [txAfter, eq_comm] using hh⟩
  | sendDone | sendStorefail => simp [txAfter] at hh
  | _ => simp [TxArm.home] at hhome

/-- R76: the padded payload is as long as the packet. -/
@[simp] theorem length_outPayload (s : State) : s.outPayload.length = s.cfg.pktHint := by
  simp [State.outPayload, State.chunk]

/-- R49, R158: byte `j` of the payload is the source's at the running offset plus `j`, until the padding
begins (R76). -/
theorem getElem?_outPayload {s : State} {j : Nat} (hj : j < s.chunk s.cfg.pktHint) :
    s.outPayload[j]? = some (s.store.byteAt (s.storeAddr + BitVec.ofNat 32 j)) := by
  rw [State.outPayload, padTo, List.getElem?_append_left (by simpa using hj),
    List.getElem?_eq_getElem (by simpa using hj), Memory.getElem_readBytes]

/-! ## The obligation -/

/-- Settles O46: the receiver is handed the frame of the sender's padded payload, accepts it, and what
it delivers is the part of the payload that was read from the source. -/
theorem emittedFrameIsAccepted : Obligations.EmittedFrameIsAccepted := by
  unfold Obligations.EmittedFrameIsAccepted
  intro tx rx tx' frame rest htx hstep hhist hpar hrx hmode hseq hmark hcount hin hdel hav hleft hrem hstored
  obtain ⟨marker, hm, hchunk, rfl⟩ := sendFrame_of_history htx hstep hhist
  have hframe : tx.outFrame marker
      = buildFrame rx.par marker (nextSeq tx.par tx.ses.seqLast) rx.ses.mode tx.outPayload := by
    rw [State.outFrame, hpar, hmode]
  have hlen : (tx.outFrame marker).length - 1 = blen tx.outPayload.length rx.ses.mode := by
    rw [← List.length_tail, hframe, length_tail_buildFrame]
  have hhand : rx.HandedFrame marker (nextSeq tx.par tx.ses.seqLast) tx.outPayload rest :=
    { node := hrx
      size := by rwa [length_outPayload]
      marker_taken := by simpa [State.outFrame, buildFrame, eq_comm] using hmark
      count_zero := hcount
      inbound := hframe ▸ hin
      deliver := hdel.trans hlen
      avail := hlen ▸ hav }
  have hsame : rx.chunk tx.outPayload.length = tx.chunk tx.cfg.pktHint := by
    simp only [State.chunk, State.remaining, length_outPayload, hrem]
  refine ⟨rx.accumulate.acceptPacket, hhand.exec_rxStep (by rw [hpar, hseq]) (Nat.sub_pos_of_lt hleft)
    (by rw [hstored, hchunk, hsame]), ?_⟩
  simp only [acceptPacket_ses, acceptPacket_res, acceptPacket_inbound, accumulate_xferred, accumulate_chunk,
    accumulate_frameSize, hhand.frameSize, hsame, hchunk]
  exact ⟨trivial, trivial, hhand.accumulate_inbound, hhand.holdsFrame.header.2.1, trivial,
    fun j hj => (hhand.read?_accepted (hsame.symm ▸ hj)).trans (getElem?_outPayload hj)⟩

end Sys2Proof.Machine
end

section
/-! The host operations (40_host_ops.md): a step is the arm its node selects and no other, idle and
wrong-direction steps, and the two inits case by case. -/

namespace Sys2Proof.Machine

/-! ## One arm, of its node's group (R102, R103) -/

/-- Settles O14: the step is the arm selected, the other arms are not, and the node is that arm's home. -/
theorem exactlyOneArmRuns : Obligations.ExactlyOneArmRuns := by
  unfold Obligations.ExactlyOneArmRuns
  refine ⟨fun s a h => ⟨exec_rxStep_selected h, fun b hne => ?_, ?_⟩,
    fun s a h => ⟨exec_txStep_selected h, fun b hne => ?_, ?_⟩⟩
  · rw [exec_rxArm, rxMeaning_not_selected h hne.symm]
  · rw [selectRx_home h]
    cases a <;> decide
  · rw [exec_txArm, txMeaning_not_selected h hne.symm]
  · rw [selectTx_home h]
    cases a <;> decide

/-! ## No session, or a session of the other direction (R104, R105, R108) -/

theorem selectRx_idle {s : State} (hn : s.ses.node = .idle) : s.selectRx = .next .idle := by
  simp only [State.selectRx, hn]

theorem selectTx_idle {s : State} (hn : s.ses.node = .idle) : s.selectTx = .next .idle := by
  simp only [State.selectTx, hn]

theorem selectRx_refused_of_isTx {s : State} (hn : s.ses.node.isTx = true) :
    s.selectRx = .refused .wrongDirection := by
  unfold State.selectRx
  cases h : s.ses.node with
  | txAwaitStart | txSendPacket | txAwaitAck => rfl
  | idle | rxStartWait | rxAwaitHeader | rxAwaitBody => simp [h, Node.isTx] at hn

theorem selectTx_refused_of_isRx {s : State} (hn : s.ses.node.isRx = true) :
    s.selectTx = .refused .wrongDirection := by
  unfold State.selectTx
  cases h : s.ses.node with
  | rxStartWait | rxAwaitHeader | rxAwaitBody => rfl
  | idle | txAwaitStart | txSendPacket | txAwaitAck => simp [h, Node.isRx] at hn

/-- Settles O12: in `Idle` each direction selects its idle arm, which does nothing but answer. -/
theorem idleStepAnswersIdleError : Obligations.IdleStepAnswersIdleError := by
  unfold Obligations.IdleStepAnswersIdleError
  intro s hn i hi
  have hrx := exec_rx_both (selectRx_idle hn) (rxMeaning_selected (selectRx_idle hn) (by decide))
  have htx := exec_tx_both (selectTx_idle hn) (txMeaning_selected (selectTx_idle hn) (by decide) 0)
  suffices h : exec i s = .next (s.answer .errIdle) from ⟨_, _, h⟩
  have hi : i ∈ ([.rxIdle, .rxStep] ++ [.txIdle, .txStep] : List Instr) := hi
  obtain hi | hi := List.mem_append.mp hi
  · exact hrx i hi
  · exact htx i hi

/-- Settles O13: no arm of the other direction is selected. -/
theorem wrongDirectionRefused : Obligations.WrongDirectionRefused := by
  unfold Obligations.WrongDirectionRefused
  exact fun s => ⟨fun hn => exec_rxStep_refused (selectRx_refused_of_isTx hn),
    fun hn => exec_txStep_refused (selectTx_refused_of_isRx hn)⟩

/-! ## The inits (R100, R101) -/

theorem rxHandlesBound_iff (c : SessionConfig) : rxHandlesBound c = true ↔
    c.hClock = true ∧ c.hWriter = true ∧ c.hReader = true ∧ c.hStoreWr = true := by
  simp [rxHandlesBound, and_assoc]

theorem txHandlesBound_iff (c : SessionConfig) : txHandlesBound c = true ↔
    c.hClock = true ∧ c.hWriter = true ∧ c.hReader = true ∧ c.hStoreRd = true := by
  simp [txHandlesBound, and_assoc]

/-- R100: an active session, or a capability unbound. -/
theorem execRxInit_rejected {c : SessionConfig} {s : State}
    (h : s.ses.node = .idle → rxHandlesBound c ≠ true) : execRxInit c s = .next (s.answer .errConfig) := by
  unfold execRxInit
  split_ifs with hn hb
  · rfl
  · rfl
  · exact absurd (by simpa using hb) (h (by simpa using hn))

/-- R101: an active session, or a capability unbound. -/
theorem execTxInit_rejected {c : SessionConfig} {s : State}
    (h : s.ses.node = .idle → txHandlesBound c ≠ true) : execTxInit c s = .next (s.answer .errConfig) := by
  unfold execTxInit
  split_ifs with hn hb
  · rfl
  · rfl
  all_goals exact absurd (by simpa using hb) (h (by simpa using hn))

theorem execRxInit_accepted {c : SessionConfig} {s : State} (hn : s.ses.node = .idle)
    (hb : rxHandlesBound c = true) :
    execRxInit c s = .next ((((s.openRx c).stamp).goto .rxStartWait).answer .cont) := by
  simp [execRxInit, hn, hb]

theorem execTxInit_accepted {c : SessionConfig} {s : State} (hn : s.ses.node = .idle)
    (hb : txHandlesBound c = true) (hh : hintLegal c.pktHint = true) :
    execTxInit c s = .next ((((s.openTx c).stamp).goto .txAwaitStart).answer .cont) := by
  simp [execTxInit, hn, hb, hh]

theorem execTxInit_illegalHint {c : SessionConfig} {s : State} (hn : s.ses.node = .idle)
    (hb : txHandlesBound c = true) (hh : hintLegal c.pktHint = false) :
    execTxInit c s = .refused .illegalHint := by
  simp [execTxInit, hn, hb, hh]

/-- Settles O10: rejected in an active node or with a capability unbound, accepted otherwise. -/
theorem rxInitStartsOrRejects : Obligations.RxInitStartsOrRejects := by
  unfold Obligations.RxInitStartsOrRejects
  intro s c
  refine ⟨fun hn => ⟨_, _, execRxInit_rejected fun hidle => absurd hidle hn⟩,
    fun _ hb => ⟨_, _, execRxInit_rejected fun _ hall => hb ((rxHandlesBound_iff c).mp hall)⟩,
    fun hn hclock hwriter hreader hstore => ⟨_, _, execRxInit_accepted hn ?_⟩⟩
  exact (rxHandlesBound_iff c).mpr ⟨hclock, hwriter, hreader, hstore⟩

/-- Settles O11: rejected in an active node or with a capability unbound; otherwise the hint decides. -/
theorem txInitStartsOrRejects : Obligations.TxInitStartsOrRejects := by
  unfold Obligations.TxInitStartsOrRejects
  intro s c
  refine ⟨fun hn => ⟨_, _, execTxInit_rejected fun hidle => absurd hidle hn⟩,
    fun _ hb => ⟨_, _, execTxInit_rejected fun _ hall => hb ((txHandlesBound_iff c).mp hall)⟩,
    fun hn hclock hwriter hreader hstore hhint => ⟨_, _, execTxInit_accepted hn ?_ ?_⟩,
    fun hn hclock hwriter hreader hstore h128 h1024 => execTxInit_illegalHint hn ?_ ?_⟩
  · exact (txHandlesBound_iff c).mpr ⟨hclock, hwriter, hreader, hstore⟩
  · exact (hintLegal_iff c.pktHint).mpr hhint
  · exact (txHandlesBound_iff c).mpr ⟨hclock, hwriter, hreader, hstore⟩
  · exact Bool.eq_false_iff.mpr fun h => ((hintLegal_iff c.pktHint).mp h).elim h128 h1024

end Sys2Proof.Machine
end

section
/-! The receive arms (41_receive.md R120 to R136): the whole next state of each arm, as an instruction and
as the step that selects it. -/

namespace Sys2Proof.Machine

/-! ## The selected arm, and the two ends of an operation -/

/-- A selected receive arm that asks nothing of the store, as an instruction and as `RX_STEP`. -/
theorem exec_rx_selected {s : State} {a : RxArm} (h : s.selectRx = .next a) (hne : a ≠ .bodyAccept) :
    ∀ i ∈ ([a.instr, .rxStep] : List Instr), exec i s = .next (rxAfter a s) :=
  exec_rx_both h (rxMeaning_selected h hne)

/-- A selected transmit arm that sends no frame, as an instruction and as `TX_STEP`. -/
theorem exec_tx_selected {s : State} {a : TxArm} (h : s.selectTx = .next a) (hne : a ≠ .sendFrame)
    (marker : Byte) : ∀ i ∈ ([a.instr, .txStep] : List Instr), exec i s = .next (txAfter a marker s) :=
  exec_tx_both h (txMeaning_selected h hne marker)

/-- `t` has of `u` what no operation of an active session changes. -/
structure State.Keeps (u t : State) : Prop where
  cfg : t.cfg = u.cfg
  ans : t.ans = u.ans
  inputs : t.inputs = u.inputs
  par : t.par = u.par

theorem rxAfter_keeps (a : RxArm) (s : State) : s.Keeps (rxAfter a s) := by
  cases a <;> constructor <;> simp [rxAfter, State.acceptPacket]

theorem txAfter_keeps (a : TxArm) (marker : Byte) (s : State) : s.Keeps (txAfter a marker s) := by
  cases a <;> constructor <;> simp [txAfter, State.sendFrame]

theorem State.Keeps.accumulate {s t : State} (h : s.Keeps t) : s.accumulate.Keeps t where
  cfg := h.cfg.trans (accumulate_cfg s).symm
  ans := h.ans.trans (accumulate_ans s).symm
  inputs := h.inputs.trans (accumulate_inputs s).symm
  par := h.par.trans (accumulate_par s).symm

section ClaimedState

variable {i : Instr} {s t u : State} {store : Memory} {inbound : List Byte} {res : Option Result}
  {history : List Event} (hx : exec i s = .next t) (hkeep : u.Keeps t) (hstore : t.store = store)
  (hin : t.inbound = inbound) (hres : t.res = res) (hcalls : t.history = history)

include hx hkeep hstore hin hres hcalls

/-- R107: the state an operation leads to, as an update of `u` in the fields a claim words; the accumulator
is free (log 4). -/
theorem exec_next_answer {ses : Session} (hses : t.ses = ses) : ∃ acc free, exec i s = .next { u with
    ses := ses, acc := acc, store := store, free := free, inbound := inbound, history := history, res := res } := by
  obtain ⟨hcfg, hans, hinputs, hpar⟩ := hkeep
  subst hses hstore hin hres hcalls
  rw [← hcfg, ← hans, ← hinputs, ← hpar]
  exact ⟨_, _, hx⟩

/-- R106: the same at the end of a session; its registers but the node are free (log 3). -/
theorem exec_next_terminal (hidle : t.ses.node = .idle) : ∃ ses acc free, exec i s = .next { u with
    ses := ses, acc := acc, store := store, free := free, inbound := inbound, history := history, res := res } ∧
    ses.node = .idle := by
  obtain ⟨acc, free, h⟩ := exec_next_answer hx hkeep hstore hin hres hcalls rfl
  exact ⟨t.ses, acc, free, h, hidle⟩

end ClaimedState

/-! ## Start (R120) -/

theorem selectRx_start {s : State} (hn : s.ses.node = .rxStartWait) : s.selectRx = .next .start := by
  simp only [State.selectRx, hn]

theorem solicitation_eq_ite (m : Mode) : solicitation m = if m = .crc then 0x43#8 else 0x15#8 := by
  cases m <;> rfl

/-- Settles O17: RX.START is selected; the solicitation goes out before the clock is read. -/
theorem rxStartSolicits : Obligations.RxStartSolicits := by
  unfold Obligations.RxStartSolicits
  intro s hn i hi
  have hx := exec_rx_selected (selectRx_start hn) (by decide) i hi
  exact exec_next_answer hx (rxAfter_keeps .start s) rfl rfl rfl (by simp [rxAfter, solicitation_eq_ite]) rfl

/-! ## Header: a recognised byte (R121 to R124) -/

/-- The marker's place is the buffer's first byte. -/
theorem fill_zero_singleton (b : Buf) (marker : Byte) : fill b 0 [marker] = b.set 0 marker := by
  ext1 i hi
  rw [getElem_fill, Vector.getElem_set]
  by_cases h0 : i = 0
  · subst h0
    simp
  · rw [dif_neg (by simp [h0]), if_neg (Ne.symm h0)]

/-- What polling one byte records. -/
theorem State.Polls.poll_history {s : State} {b : Byte} (h : s.Polls b) :
    (s.poll 1).history = s.history ++ [Event.rxPoll 1 [b]] := by
  rw [State.poll_history, h.polledBytes]

/-- R121, R122: an arm that opens a frame with the marker polled. -/
theorem exec_openFrame {s : State} {marker : Byte} {i : Instr} (h : s.Polls marker)
    (hx : exec i s = .next (((((s.poll 1).openFrame marker).stamp).goto .rxAwaitBody).answer .cont)) :
    ∃ acc free, exec i s = .next { s with
      acc := acc, free := free
      ses := { s.ses with
        buf := s.ses.buf.set 0 marker, rxCount := 0#11, hdrSeen := true, tLast := s.ans.now
        node := .rxAwaitBody }
      inbound := s.inbound.tail
      history := s.history ++ [.rxPoll 1 [marker], .now s.ans.now]
      res := some .cont } :=
  exec_next_answer hx ⟨rfl, rfl, rfl, rfl⟩ rfl h.drop rfl (by simp [h.polledBytes])
    (by simp [fill_zero_singleton])

/-- Settles O18: the marker's own arm is selected, whatever the clock says. -/
theorem headerMarkerOpensFrame : Obligations.HeaderMarkerOpensFrame := by
  unfold Obligations.HeaderMarkerOpensFrame
  intro s marker hn hp i hi
  obtain ⟨rfl, hi⟩ | ⟨rfl, hi⟩ := hi
  · have hsel : s.selectRx = .next .hdrSoh := selectRx_polls hn hp
    exact exec_openFrame hp (exec_rx_selected hsel (by decide) i hi)
  · have hsel : s.selectRx = .next .hdrStx := selectRx_polls hn hp
    exact exec_openFrame hp (exec_rx_selected hsel (by decide) i hi)

/-- Settles O19: RX.HDR.EOT is selected; the comparison with the total decides the result alone. -/
theorem headerEotEndsSession : Obligations.HeaderEotEndsSession := by
  unfold Obligations.HeaderEotEndsSession
  intro s hn hp i hi
  have hsel : s.selectRx = .next .hdrEot := selectRx_polls hn hp
  exact exec_next_terminal (exec_rx_selected hsel (by decide) i hi) (rxAfter_keeps .hdrEot s) rfl hp.drop rfl
    (by simp [rxAfter, hp.polledBytes, ACK]) rfl

/-- Settles O20: in each control-byte node the CAN arm is selected, and it only polls. -/
theorem peerCancelEndsSession : Obligations.PeerCancelEndsSession := by
  unfold Obligations.PeerCancelEndsSession
  intro s hp i hi
  have hx : exec i s = .next ((s.poll 1).terminal .errPeerCancel) := by
    obtain ⟨hn, hi⟩ | ⟨hn, hi⟩ | ⟨hn, hi⟩ := hi
    · have hsel : s.selectRx = .next .hdrCan := selectRx_polls hn hp
      exact exec_rx_selected hsel (by decide) i hi
    · have hsel : s.selectTx = .next .startCan := selectTx_polls_start hn hp
      exact exec_tx_selected hsel (by decide) 0 i hi
    · have hsel : s.selectTx = .next .ackCan := selectTx_polls_ack hn hp
      exact exec_tx_selected hsel (by decide) 0 i hi
  exact exec_next_terminal hx (rxAfter_keeps .hdrCan s) rfl hp.drop rfl hp.poll_history rfl

/-! ## No recognised byte (R125 to R128, R153, R163) -/

/-- A step that polls for nothing and then looks at the clock records the two calls in that order. -/
theorem poll_readClock_history (s : State) : (s.poll 1).readClock.history =
    s.history ++ [Event.rxPoll 1 (s.inbound.take s.ans.deliver), .now s.ans.now] := by
  simp [State.polledBytes]

/-- Settles O21: in each control-byte node the WAIT arm is selected, and it polls and reads the clock. -/
theorem waitingChangesNoRegister : Obligations.WaitingChangesNoRegister := by
  unfold Obligations.WaitingChangesNoRegister
  intro s ht i hi
  have hack : s.ackExpired = false := ht
  have hx : exec i s = .next ((s.poll 1).readClock.answer .cont) := by
    obtain ⟨hn, hq, hi⟩ | ⟨hn, hq, hi⟩ | ⟨hn, hq, hi⟩ := hi
    · have hsel : s.selectRx = .next .hdrWait := by rw [selectRx_quiet hn hq, hack]; rfl
      exact exec_rx_selected hsel (by decide) i hi
    · have hsel : s.selectTx = .next .startWait := by rw [selectTx_quiet_start hn hq, hack]; rfl
      exact exec_tx_selected hsel (by decide) 0 i hi
    · have hsel : s.selectTx = .next .ackWait := by rw [selectTx_quiet_ack hn hq, hack]; rfl
      exact exec_tx_selected hsel (by decide) 0 i hi
  exact exec_next_answer hx (rxAfter_keeps .hdrWait s) rfl rfl rfl (poll_readClock_history s) rfl

/-- Settles O22: the timeout run out, the latch and then the budget select the arm. -/
theorem headerTimeout : Obligations.HeaderTimeout := by
  unfold Obligations.HeaderTimeout
  intro s hn hq ht
  have hack : s.ackExpired = true := ht
  have hcalls := poll_readClock_history s
  refine ⟨fun hseen hleft i hi => ?_, fun hseen hspent i hi => ?_, fun hseen i hi => ?_⟩
  · have hleft : s.solicitationsLeft = true := decide_eq_true hleft
    have hsel : s.selectRx = .next .hdrTmoRetry := by rw [selectRx_quiet hn hq, hack, hseen, hleft]; rfl
    have hx := exec_rx_selected hsel (by decide) i hi
    exact exec_next_answer hx (rxAfter_keeps .hdrTmoRetry s) rfl rfl rfl hcalls rfl
  · have hspent : s.solicitationsLeft = false := decide_eq_false hspent.not_gt
    have hsel : s.selectRx = .next .hdrTmoStart := by rw [selectRx_quiet hn hq, hack, hseen, hspent]; rfl
    have hx := exec_rx_selected hsel (by decide) i hi
    exact exec_next_terminal hx (rxAfter_keeps .hdrTmoStart s) rfl rfl rfl hcalls rfl
  · have hsel : s.selectRx = .next .hdrTmoStall := by rw [selectRx_quiet hn hq, hack, hseen]; rfl
    have hx := exec_rx_selected hsel (by decide) i hi
    exact exec_next_terminal hx (rxAfter_keeps .hdrTmoStall s) rfl rfl rfl hcalls rfl

end Sys2Proof.Machine
end

section
/-! Accumulation (41_receive.md R129): what it asks for, where the bytes go, and that how the reader splits
them does not matter. -/

namespace Sys2Proof.Machine

/-- R44: where the reader keeps its contract, what a body step takes off the stream is as long as what it
puts in the buffer. -/
theorem State.BodyStep.inbound_drop {s : State} (h : s.BodyStep) :
    s.accumulate.inbound = s.inbound.drop s.bodyBytes.length := by
  obtain ⟨-, -, hr⟩ := h
  rw [accumulate_inbound, State.bodyBytes]
  split_ifs with h0
  · rfl
  · have hle : s.ans.deliver ≤ s.inbound.length := (hr.resolve_left h0).2
    rw [State.polledBytes, List.length_take_of_le hle]

/-- R129: where the bytes handed over stand. -/
theorem accumulate_buf (s : State) :
    s.accumulate.ses.buf = fill s.ses.buf (1 + s.ses.rxCount.toNat) s.bodyBytes := by rw [accumulate_eq]

/-- R129: the calls, told by the bytes taken. -/
theorem bodyCalls_eq (s : State) : s.bodyCalls = (if s.cfg.hAvail = true then [.rxAvail s.ans.avail] else []) ++
    (if s.request = 0 then [] else [.rxPoll s.request s.bodyBytes]) := by
  by_cases h0 : s.request = 0 <;> simp [State.bodyCalls, State.bodyBytes, h0]

/-- R129: a body step's accumulation moves the buffer, its counter, the stream and the calls. -/
theorem State.BodyStep.accumulate_eq {s : State} (h : s.BodyStep) : s.accumulate = { s with
    ses := { s.ses with buf := s.accumulate.ses.buf, rxCount := s.accumulate.ses.rxCount }
    inbound := s.inbound.drop s.bodyBytes.length
    history := s.history ++ s.bodyCalls } := by
  rw [← h.inbound_drop, Machine.accumulate_eq]

/-- Settles O23: the count is `accumulate_rxCount`'s, the bytes are `getElem_fill`'s. -/
theorem accumulationFillsFrame : Obligations.AccumulationFillsFrame := by
  unfold Obligations.AccumulationFillsFrame
  intro s h hopen
  obtain ⟨hcount, hle⟩ := accumulate_rxCount s h.bodyLength_le hopen h.2.2
  refine ⟨rfl, s.bodyBytes, s.accumulate.ses.buf, s.accumulate.ses.rxCount, rfl, ?_, hcount, hle, ?_, ?_⟩
  · rw [List.append_assoc, ← bodyCalls_eq]
    exact h.accumulate_eq
  · intro j hj hb
    simp only [accumulate_buf, getElem_fill]
    rw [dif_pos (by omega)]
    simp only [Nat.add_sub_cancel_left]
  · intro k hk hout
    simp only [accumulate_buf, getElem_fill]
    rw [dif_neg (by omega)]

/-- R129: with no buffered-count query, bytes that the frame still needs are all taken. -/
theorem accumulate_of_unbound {s : State} (hav : s.cfg.hAvail = false)
    (hfit : s.ses.rxCount.toNat + s.ans.deliver ≤ s.bodyLength) :
    s.accumulate.ses = (s.takeBody s.polledBytes).ses ∧ s.accumulate.inbound = s.inbound.drop s.ans.deliver := by
  have hreq : s.request = 0 → s.ans.deliver = 0 := by
    simp only [State.request, hav, State.need, Bool.false_eq_true, if_false]
    omega
  have hbytes : s.bodyBytes = s.polledBytes := by
    unfold State.bodyBytes
    split_ifs with h0
    · rw [State.polledBytes, hreq h0, List.take_zero]
    · rfl
  constructor
  · rw [accumulate_eq, hbytes]
    rfl
  · rw [accumulate_inbound]
    split_ifs with h0
    · rw [hreq h0]
    · rfl

/-- The counter of a frame's bytes does not wrap (R15, R16). -/
theorem toNat_takeBody_rxCount {s : State} {bytes : List Byte} (hfit : s.ses.rxCount.toNat + bytes.length < 2048) :
    (s.takeBody bytes).ses.rxCount.toNat = s.ses.rxCount.toNat + bytes.length := by
  rw [State.takeBody_ses, BitVec.toNat_add, BitVec.toNat_ofNat]
  omega

/-- Bytes taken in two runs are taken as one. -/
theorem takeBody_takeBody_ses {s t : State} {xs : List Byte} (ht : t.ses = (s.takeBody xs).ses)
    (hfit : s.ses.rxCount.toNat + xs.length < 2048) (ys : List Byte) :
    (t.takeBody ys).ses = (s.takeBody (xs ++ ys)).ses := by
  have hcount := toNat_takeBody_rxCount hfit
  rw [State.takeBody_ses] at hcount
  simp only [State.takeBody_ses, ht, hcount, ← Nat.add_assoc, fill_append, List.length_append, BitVec.ofNat_add,
    BitVec.add_assoc]

/-- Settles O24: two runs of bytes end to end are one run, in the buffer, in the count and in the stream. -/
theorem accumulationSplitsAgree : Obligations.AccumulationSplitsAgree := by
  unfold Obligations.AccumulationSplitsAgree
  intro s j k hn hm hav hfit hlen first second whole
  have hneed : s.request = s.bodyLength - s.ses.rxCount.toNat := by simp [State.request, hav, State.need]
  have hstep : { s with ans := { s.ans with deliver := j + k } }.BodyStep :=
    ⟨hn, hm, .inr ⟨hneed ▸ Nat.le_sub_of_add_le' hfit, hlen⟩⟩
  have hmax : s.bodyLength ≤ 1028 := hstep.bodyLength_le
  obtain ⟨hwhole, hwhole_in⟩ : whole.ses = (s.takeBody (s.inbound.take (j + k))).ses ∧
      whole.inbound = s.inbound.drop (j + k) := accumulate_of_unbound hav hfit
  have hfit_j : s.ses.rxCount.toNat + j ≤ s.bodyLength := by omega
  obtain ⟨hfirst, hfirst_in⟩ : first.ses = (s.takeBody (s.inbound.take j)).ses ∧
      first.inbound = s.inbound.drop j := accumulate_of_unbound hav hfit_j
  have hj : (s.inbound.take j).length = j := List.length_take_of_le (by omega)
  have hcount : first.ses.rxCount.toNat = s.ses.rxCount.toNat + j := by
    rw [hfirst, toNat_takeBody_rxCount (by omega), hj]
  have hav_first : first.cfg.hAvail = false := by rwa [accumulate_cfg]
  have hfit_k : first.ses.rxCount.toNat + k ≤ first.bodyLength := by
    rw [hcount, accumulate_bodyLength, Nat.add_assoc]
    exact hfit
  obtain ⟨hsecond, hsecond_in⟩ : second.ses = (first.takeBody (first.inbound.take k)).ses ∧
      second.inbound = first.inbound.drop k := accumulate_of_unbound hav_first hfit_k
  constructor
  · rw [hsecond, takeBody_takeBody_ses hfirst (by omega), hfirst_in, ← List.take_add, hwhole]
  · rw [hsecond_in, hfirst_in, List.drop_drop, hwhole_in]

end Sys2Proof.Machine
end

section
/-! Body steps (41_receive.md R130 to R136): what each check that fails, and the last that passes, makes of the
state after accumulation. -/

namespace Sys2Proof.Machine

/-! ## An incomplete frame (R130, R131) -/

/-- Settles O25: the count after accumulation and then the timeout select the arm. -/
theorem incompleteBodyWaitsOrNaks : Obligations.IncompleteBodyWaitsOrNaks := by
  unfold Obligations.IncompleteBodyWaitsOrNaks
  intro s h hopen
  refine ⟨fun ht i hi => ?_, fun ht i hi => ?_⟩
  · have hsel : s.selectRx = .next .bodyWait := by rw [h.selectRx_cases, if_pos hopen, if_pos ht]
    have hx := exec_rx_selected hsel (by decide) i hi
    exact exec_next_answer hx (rxAfter_keeps .bodyWait s).accumulate (by simp [rxAfter])
      (by simp [rxAfter]) rfl (by simp [rxAfter]) rfl
  · have hsel : s.selectRx = .next .bodyTmo := by rw [h.selectRx_cases, if_pos hopen, if_neg (by simp [ht])]
    have hx := exec_rx_selected hsel (by decide) i hi
    exact exec_next_answer hx (rxAfter_keeps .bodyTmo s).accumulate (by simp [rxAfter])
      (by simp [rxAfter]) rfl (by simp [rxAfter, NAK]) rfl

/-! ## A complete frame (R132 to R136) -/

/-- Settles O26: the check of the header bytes comes before every other. -/
theorem mismatchIsFatal : Obligations.MismatchIsFatal := by
  unfold Obligations.MismatchIsFatal
  intro s h hfull hbad i hi
  have hsel : s.selectRx = .next .bodyMismatch := by
    rw [h.selectRx_cases, if_neg hfull.not_gt, if_pos (not_and_or.mpr hbad)]
  have hx := exec_rx_selected hsel (by decide) i hi
  exact exec_next_terminal hx (rxAfter_keeps .bodyMismatch s).accumulate (by simp [rxAfter])
    (by simp [rxAfter]) rfl rfl rfl

/-- R138: the checks left once the frame is complete and in sequence. -/
theorem State.BodyStep.selectRx_inSequence {s : State} (h : s.BodyStep) (hf : s.accumulate.FrameInSequence) :
    s.selectRx = .next (
      if s.accumulate.integrityOk = false then .bodyBadsum
      else if s.remaining = 0 then .bodyOverrun
      else if s.ans.stored = 0 then .bodyStorefail else .bodyAccept) := by
  obtain ⟨hfull, hseq⟩ := hf
  simp only [accumulate_bodyLength, accumulate_par, accumulate_seqLast] at hfull hseq
  rw [h.selectRx_cases, if_neg hfull.not_gt, if_neg (not_not_intro hseq)]

/-- R187: the integrity check, on the fields of the frame accumulated. -/
theorem accumulate_integrityOk_eq_false_iff (s : State) : s.accumulate.integrityOk = false ↔
    slice s.accumulate.ses.buf (3 + s.frameSize) (ilen s.ses.mode)
      ≠ integrityBytes s.par s.ses.mode (slice s.accumulate.ses.buf 3 s.frameSize) := by
  simp [State.integrityOk, State.integrityField, State.payload]

/-- Settles O27: the integrity check is the first left, and its arm emits before it stamps. -/
theorem badIntegrityAsksAgain : Obligations.BadIntegrityAsksAgain := by
  unfold Obligations.BadIntegrityAsksAgain
  intro s h hf hbad i hi
  have hsum := (accumulate_integrityOk_eq_false_iff s).mpr hbad
  have hsel : s.selectRx = .next .bodyBadsum := by rw [h.selectRx_inSequence hf, if_pos hsum]
  have hx := exec_rx_selected hsel (by decide) i hi
  exact exec_next_answer hx (rxAfter_keeps .bodyBadsum s).accumulate (by simp [rxAfter])
    (by simp [rxAfter]) rfl (by simp [rxAfter, NAK]) (by simp [rxAfter])

/-- Settles O28: with nothing left of the total, the store is not asked. -/
theorem overrunEndsInSuccess : Obligations.OverrunEndsInSuccess := by
  unfold Obligations.OverrunEndsInSuccess
  intro s h hf hsum htotal i hi
  have hleft : s.remaining = 0 := by rw [State.remaining, htotal, Nat.sub_self]
  have hsel : s.selectRx = .next .bodyOverrun := by
    rw [h.selectRx_inSequence hf, if_neg (by simp [hsum]), if_pos hleft]
  have hx := exec_rx_selected hsel (by decide) i hi
  exact exec_next_terminal hx (rxAfter_keeps .bodyOverrun s).accumulate (by simp [rxAfter])
    (by simp [rxAfter]) rfl rfl rfl

/-! ## The store write (R135, R136) -/

/-- R136: what is offered to the store is the chunk's bytes of the payload accumulated. -/
theorem accumulate_delivered (s : State) :
    s.accumulate.delivered = slice s.accumulate.ses.buf 3 (s.chunk s.frameSize) := by
  rw [State.delivered, accumulate_chunk, accumulate_frameSize]

/-- R16: a payload fits the buffer, so the whole chunk is offered. -/
theorem State.BodyStep.length_delivered {s : State} (h : s.BodyStep) :
    s.accumulate.delivered.length = s.chunk s.frameSize := by
  have hchunk : s.chunk s.frameSize ≤ s.frameSize := min_le_left _ _
  have hsize := h.frameSize
  rw [Machine.length_delivered, accumulate_chunk, accumulate_frameSize]
  omega

/-- R135: the calls of RX.BODY.STOREFAIL after accumulation. -/
theorem State.BodyStep.storefail_history {s : State} (h : s.BodyStep) : (rxAfter .bodyStorefail s).history =
    s.accumulate.history ++
      [Event.memWrite s.storeAddr (s.chunk s.frameSize) (slice s.accumulate.ses.buf 3 (s.chunk s.frameSize)) 0,
        .txEmit [0x18#8]] := by
  rw [← accumulate_delivered, ← h.length_delivered]
  simp [rxAfter, CAN]

/-- R135: the store after RX.BODY.STOREFAIL, outside the bytes of the one write. -/
theorem State.BodyStep.storefail_read?_outside {s : State} (h : s.BodyStep) {x : Nat}
    (hout : ∀ j < s.chunk s.frameSize, x ≠ (s.storeAddr + BitVec.ofNat 32 j).toNat) :
    (rxAfter .bodyStorefail s).store.read? x = s.store.read? x := by
  simp only [rxAfter, State.terminal_store, State.emit_store, State.failStore_store, accumulate_store,
    accumulate_storeAddr]
  refine Memory.read?_writeBytes_outside _ _ _ _ ?_
  rwa [List.length_map, List.length_range, h.length_delivered]

/-- Settles O29: RX.BODY.STOREFAIL is selected, and its write touches the chunk's addresses alone. -/
theorem storeFailureIsFatal : Obligations.StoreFailureIsFatal := by
  unfold Obligations.StoreFailureIsFatal
  intro s h hf hsum hleft hst i hi
  have hrem : s.remaining ≠ 0 := (Nat.sub_pos_of_lt hleft).ne'
  have hsel : s.selectRx = .next .bodyStorefail := by
    rw [h.selectRx_inSequence hf, if_neg (by simp [hsum]), if_neg hrem, if_pos hst]
  have hx := exec_rx_selected hsel (by decide) i hi
  have hin : (rxAfter .bodyStorefail s).inbound = s.accumulate.inbound := by simp [rxAfter]
  have hres : (rxAfter .bodyStorefail s).res = some .errStore := rfl
  obtain ⟨ses, acc, free, hx, hidle⟩ :=
    exec_next_terminal hx (rxAfter_keeps .bodyStorefail s).accumulate rfl hin hres h.storefail_history rfl
  exact ⟨ses, acc, free, _, hx, hidle, fun x hout => h.storefail_read?_outside hout⟩

/-- R136: the calls of RX.BODY.ACCEPT after accumulation, the store having taken the chunk. -/
theorem State.BodyStep.accept_history {s : State} (h : s.BodyStep) (hst : s.ans.stored = s.chunk s.frameSize) :
    s.accumulate.acceptPacket.history = s.accumulate.history ++
      [Event.memWrite s.storeAddr s.ans.stored (slice s.accumulate.ses.buf 3 s.ans.stored) s.ans.stored,
        .txEmit [0x06#8], .now s.ans.now] := by
  rw [acceptPacket_history, h.length_delivered, accumulate_delivered, accumulate_storeAddr, accumulate_ans, hst, ACK]

/-- R136: offset, sequence number, stamp and node move on. -/
theorem accept_ses {s : State} (hst : s.ans.stored = s.chunk s.frameSize) :
    s.accumulate.acceptPacket.ses = { s.accumulate.ses with
      xferred := s.ses.xferred + BitVec.ofNat 32 s.ans.stored
      seqLast := s.accumulate.ses.buf[1], tLast := s.ans.now, node := .rxAwaitHeader } := by
  simp [hst]

/-- R49, R136: payload byte `j` stands at the running offset plus `j`. -/
theorem State.BodyStep.accept_read?_inside {s : State} (h : s.BodyStep) {j : Nat} (hj : j < s.chunk s.frameSize)
    (hb : 3 + j < 1029) : s.accumulate.acceptPacket.store.read? (s.storeAddr + BitVec.ofNat 32 j).toNat
      = some s.accumulate.ses.buf[3 + j] := by
  have hlen := h.length_delivered
  have hchunk : s.chunk s.frameSize ≤ s.frameSize := min_le_left _ _
  have hsize := h.frameSize
  rw [acceptPacket_store, accumulate_storeAddr, Memory.read?_writeBytes_inside _ _ _ (by omega) j (by omega)]
  simp only [State.delivered, getElem_slice]

/-- R136: every store byte outside the chunk's addresses reads as before. -/
theorem State.BodyStep.accept_read?_outside {s : State} (h : s.BodyStep) {x : Nat}
    (hout : ∀ j < s.chunk s.frameSize, x ≠ (s.storeAddr + BitVec.ofNat 32 j).toNat) :
    s.accumulate.acceptPacket.store.read? x = s.store.read? x := by
  rw [acceptPacket_store, accumulate_store, accumulate_storeAddr]
  refine Memory.read?_writeBytes_outside _ _ _ _ ?_
  rwa [h.length_delivered]

/-- Settles O30: RX.BODY.ACCEPT is selected, and the store takes the whole chunk. -/
theorem acceptDeliversPacket : Obligations.AcceptDeliversPacket := by
  unfold Obligations.AcceptDeliversPacket
  intro s h hf hsum hleft hst i hi
  have hchunk : s.ans.stored = s.chunk s.frameSize := hst.trans (min_comm _ _)
  have hstored : s.ans.stored ≠ 0 := by
    have := h.frameSize
    omega
  have hsel := selectRx_accept h hf hsum (Nat.sub_pos_of_lt hleft) hstored
  have hx : exec i s = .next s.accumulate.acceptPacket :=
    exec_rx_both hsel (by rw [rxMeaning_accept hsel, if_pos hchunk]; rfl) i hi
  obtain ⟨acc, free, hx⟩ := exec_next_answer hx (rxAfter_keeps .bodyAccept s).accumulate rfl
    (acceptPacket_inbound _) (acceptPacket_res _) (h.accept_history hchunk) (accept_ses hchunk)
  exact ⟨acc, free, _, hx, fun j hj hb => h.accept_read?_inside (hchunk ▸ hj) hb,
    fun x hout => h.accept_read?_outside (hchunk ▸ hout)⟩

end Sys2Proof.Machine
end

section
/-! The transmit arms (42_transmit.md R150 to R164): the whole next state of each arm, as an instruction and
as the step that selects it. -/

namespace Sys2Proof.Machine

/-! ## Sending a packet (R156 to R158) -/

/-- R72: the frame at hand has `FLEN` bytes. -/
theorem length_outFrame (s : State) (marker : Byte) : (s.outFrame marker).length = flen s.cfg.pktHint s.ses.mode := by
  rw [State.outFrame, length_buildFrame, length_outPayload]

/-- R16, R72: the longest frame fits the packet buffer. -/
theorem flen_le_of_markerOf {size : Nat} {marker : Byte} (h : markerOf size = some marker) (m : Mode) :
    flen size m ≤ 1029 := by
  have hbody := blen_le_of_markerOf h m
  unfold blen at hbody
  unfold flen
  omega

/-- R16: a frame put in the buffer stands at its start; the later bytes stay (log 28). -/
theorem toList_fill_zero {b : Buf} {bs : List Byte} (h : bs.length ≤ 1029) :
    (fill b 0 bs).toList = bs ++ b.toList.drop bs.length := by
  rw [fill_toList, List.take_zero, List.nil_append, Nat.zero_add, List.take_of_length_le]
  rw [List.length_append, List.length_drop, Vector.length_toList]
  omega

/-- R43, R76, R158: the payload of the frame is what the store gave, padded. -/
theorem outPayload_of_stored {s : State} (hst : s.ans.stored = s.chunk s.cfg.pktHint) : s.outPayload =
    s.store.readBytes s.storeAddr s.ans.stored ++ List.replicate (s.cfg.pktHint - s.ans.stored) PAD := by
  rw [State.outPayload, padTo, Memory.length_readBytes, hst]

/-- R158: TX.SEND.FRAME where it is selected and the store gave the whole chunk. -/
theorem exec_sendFrame {s : State} {marker : Byte} (hsel : s.selectTx = .next .sendFrame)
    (hm : markerOf s.cfg.pktHint = some marker) (hst : s.ans.stored = s.chunk s.cfg.pktHint) :
    ∀ i ∈ ([.txSendFrame, .txStep] : List Instr), ∃ acc free, exec i s = .next { s with
      acc := acc, free := free
      ses := { s.ses with buf := fill s.ses.buf 0 (s.outFrame marker), tLast := s.ans.now, node := .txAwaitAck }
      history := s.history ++
        [.memRead s.storeAddr s.ans.stored s.ans.stored, .txEmit (s.outFrame marker), .now s.ans.now]
      res := some .cont } := by
  intro i hi
  have hx : exec i s = .next (s.sendFrame marker) :=
    exec_tx_both hsel (by rw [txMeaning_send hsel hm, if_pos hst]; rfl) i hi
  have hcalls : (s.sendFrame marker).history = s.history ++
      [.memRead s.storeAddr s.ans.stored s.ans.stored, .txEmit (s.outFrame marker), .now s.ans.now] := by
    rw [sendFrame_history, ← hst]
  exact exec_next_answer hx (txAfter_keeps .sendFrame marker s) rfl rfl rfl hcalls rfl

/-- Settles O35: bytes left and a store that gives them select TX.SEND.FRAME, which sends the frame of the
padded chunk and keeps it at the buffer's start. -/
theorem sendEmitsFrame : Obligations.SendEmitsFrame := by
  unfold Obligations.SendEmitsFrame
  intro s marker hn hmarker hleft hst i hi
  have hm : markerOf s.cfg.pktHint = some marker := by
    obtain ⟨hhint, rfl⟩ | ⟨hhint, rfl⟩ := hmarker <;> rw [hhint] <;> rfl
  have hhint : s.cfg.pktHint = 128 ∨ s.cfg.pktHint = 1024 := hmarker.imp And.left And.left
  have hchunk : s.ans.stored = s.chunk s.cfg.pktHint := hst
  have hstored : 0 < s.ans.stored := by omega
  have hsel := selectTx_sendFrame hn ((hintLegal_iff _).mpr hhint) (hchunk ▸ hstored) hstored.ne'
  obtain ⟨acc, free, hx⟩ := exec_sendFrame hsel hm hchunk i hi
  have hlen := length_outFrame s marker
  have hfits : (s.outFrame marker).length ≤ 1029 := hlen ▸ flen_le_of_markerOf hm s.ses.mode
  refine ⟨acc, free, _, _, s.outPayload, s.outFrame marker, rfl, outPayload_of_stored hchunk, ?_, hlen,
    toList_fill_zero hfits, hx⟩
  cases hmode : s.ses.mode <;> rw [State.outFrame, hmode] <;> rfl

/-- R166: with nothing left TX.SEND.DONE is selected, whatever the store would answer. -/
theorem selectTx_sendDone {s : State} (hn : s.ses.node = .txSendPacket) (hh : hintLegal s.cfg.pktHint = true)
    (hnone : s.chunk s.cfg.pktHint = 0) : s.selectTx = .next .sendDone := by
  rw [selectTx_send hn hh]
  simp [decodeSend, State.sendSignals, hnone]

/-- R166: bytes left to send, and a store that answers 0, select TX.SEND.STOREFAIL. -/
theorem selectTx_sendStorefail {s : State} (hn : s.ses.node = .txSendPacket) (hh : hintLegal s.cfg.pktHint = true)
    (hleft : 0 < s.chunk s.cfg.pktHint) (hst : s.ans.stored = 0) : s.selectTx = .next .sendStorefail := by
  rw [selectTx_send hn hh]
  simp [decodeSend, State.sendSignals, hleft, hst]

/-- Settles O33: nothing is left of the total, so TX.SEND.DONE is selected, and it only emits. -/
theorem nothingLeftEndsTransmission : Obligations.NothingLeftEndsTransmission := by
  unfold Obligations.NothingLeftEndsTransmission
  intro s hn hhint htotal i hi
  have hnone : s.chunk s.cfg.pktHint = 0 := by rw [State.chunk, State.remaining, htotal, Nat.sub_self, Nat.min_zero]
  have hsel := selectTx_sendDone hn ((hintLegal_iff _).mpr hhint) hnone
  have hx := exec_tx_selected hsel (by decide) 0 i hi
  exact exec_next_terminal hx (txAfter_keeps .sendDone 0 s) rfl rfl rfl rfl rfl

/-- Settles O34: bytes are left and the store answers 0, so TX.SEND.STOREFAIL is selected; the one emission
is the `CAN`. -/
theorem sourceFailureIsFatal : Obligations.SourceFailureIsFatal := by
  unfold Obligations.SourceFailureIsFatal
  intro s hn hhint hleft hst i hi
  have hchunk : 0 < s.chunk s.cfg.pktHint := by
    rw [State.chunk, State.remaining]
    omega
  have hsel := selectTx_sendStorefail hn ((hintLegal_iff _).mpr hhint) hchunk hst
  have hx := exec_tx_selected hsel (by decide) 0 i hi
  exact exec_next_terminal hx (txAfter_keeps .sendStorefail 0 s) rfl rfl rfl (by simp [txAfter, hst, CAN]) rfl

/-! ## Start (R150, R151, R154, R155) -/

/-- What polling one byte and then stamping the clock records. -/
theorem State.Polls.poll_stamp_history {s : State} {b : Byte} (h : s.Polls b) :
    (s.poll 1).stamp.history = s.history ++ [Event.rxPoll 1 [b], .now s.ans.now] := by
  simp [h.polledBytes]

/-- R150, R151: an arm that takes a mode from the byte polled. -/
theorem exec_setMode {s : State} {b : Byte} {m : Mode} {i : Instr} (h : s.Polls b)
    (hx : exec i s = .next (((((s.poll 1).setMode m).stamp).goto .txSendPacket).answer .cont)) :
    ∃ acc free, exec i s = .next { s with
      acc := acc, free := free
      ses := { s.ses with mode := m, tLast := s.ans.now, node := .txSendPacket }
      inbound := s.inbound.tail
      history := s.history ++ [.rxPoll 1 [b], .now s.ans.now]
      res := some .cont } :=
  exec_next_answer hx ⟨rfl, rfl, rfl, rfl⟩ rfl h.drop rfl h.poll_stamp_history rfl

/-- Settles O31: the byte's own arm is selected, whatever the clock says. -/
theorem solicitationFixesMode : Obligations.SolicitationFixesMode := by
  unfold Obligations.SolicitationFixesMode
  intro s b m hn hp i hi
  obtain ⟨rfl, rfl, hi⟩ | ⟨rfl, rfl, hi⟩ := hi
  · have hsel : s.selectTx = .next .startC := selectTx_polls_start hn hp
    exact exec_setMode hp (exec_tx_selected hsel (by decide) 0 i hi)
  · have hsel : s.selectTx = .next .startNak := selectTx_polls_start hn hp
    exact exec_setMode hp (exec_tx_selected hsel (by decide) 0 i hi)

/-- Settles O32: the timeout run out, the budget selects the arm. -/
theorem startIntervalExpires : Obligations.StartIntervalExpires := by
  unfold Obligations.StartIntervalExpires
  intro s hn hq ht
  have hack : s.ackExpired = true := ht
  have hcalls := poll_readClock_history s
  refine ⟨fun hleft i hi => ?_, fun hspent i hi => ?_⟩
  · have hleft : s.intervalsLeft = true := decide_eq_true hleft
    have hsel : s.selectTx = .next .startTmoRetry := by rw [selectTx_quiet_start hn hq, hack, hleft]; rfl
    have hx := exec_tx_selected hsel (by decide) 0 i hi
    exact exec_next_answer hx (txAfter_keeps .startTmoRetry 0 s) rfl rfl rfl hcalls rfl
  · have hspent : s.intervalsLeft = false := decide_eq_false hspent.not_gt
    have hsel : s.selectTx = .next .startTmoFatal := by rw [selectTx_quiet_start hn hq, hack, hspent]; rfl
    have hx := exec_tx_selected hsel (by decide) 0 i hi
    exact exec_next_terminal hx (txAfter_keeps .startTmoFatal 0 s) rfl rfl rfl hcalls rfl

/-! ## The peer's reply (R159 to R161, R164) -/

/-- R167: an `ACK` polled, the total selects the arm. -/
theorem selectTx_polls_ackByte {s : State} (hn : s.ses.node = .txAwaitAck) (h : s.Polls 0x06#8) :
    s.selectTx = .next (if s.lastPacket then .ackLast else .ackMore) := selectTx_polls_ack hn h

/-- Settles O36: the packet acknowledged completes the total, so TX.ACK.ACK_LAST is selected. -/
theorem lastAckEndsTransmission : Obligations.LastAckEndsTransmission := by
  unfold Obligations.LastAckEndsTransmission
  intro s hn hp htotal i hi
  have hlast : s.lastPacket = true := decide_eq_true htotal
  have hsel : s.selectTx = .next .ackLast := by rw [selectTx_polls_ackByte hn hp, if_pos hlast]
  have hx := exec_tx_selected hsel (by decide) 0 i hi
  exact exec_next_terminal hx (txAfter_keeps .ackLast 0 s) rfl hp.drop rfl
    (by simp [txAfter, hp.polledBytes, EOT]) rfl

/-- R167: more than a packet remaining, the packet acknowledged does not complete the total. -/
theorem lastPacket_eq_false {s : State} (h : s.ses.xferred.toNat + s.cfg.pktHint < s.cfg.total.toNat) :
    s.lastPacket = false := by
  have hchunk : s.chunk s.cfg.pktHint ≤ s.cfg.pktHint := min_le_left _ _
  exact decide_eq_false (by omega)

/-- Settles O37: bytes of the total remain after this packet, so TX.ACK.ACK_MORE is selected. -/
theorem ackAdvancesTransmission : Obligations.AckAdvancesTransmission := by
  unfold Obligations.AckAdvancesTransmission
  intro s hn hp hmore i hi
  have hsel : s.selectTx = .next .ackMore := by
    rw [selectTx_polls_ackByte hn hp, lastPacket_eq_false hmore]
    rfl
  have hx := exec_tx_selected hsel (by decide) 0 i hi
  exact exec_next_answer hx (txAfter_keeps .ackMore 0 s) rfl hp.drop rfl hp.poll_stamp_history rfl

/-- Settles O38: TX.ACK.NAK is selected, and it moves only the stamp and the node. -/
theorem nakResendsSamePacket : Obligations.NakResendsSamePacket := by
  unfold Obligations.NakResendsSamePacket
  intro s hn hp i hi
  have hsel : s.selectTx = .next .ackNak := selectTx_polls_ack hn hp
  have hx := exec_tx_selected hsel (by decide) 0 i hi
  exact exec_next_answer hx (txAfter_keeps .ackNak 0 s) rfl hp.drop rfl hp.poll_stamp_history rfl

/-- Settles O39: no recognised byte and the timeout run out select TX.ACK.TMO, which emits nothing. -/
theorem ackTimeoutIsFatal : Obligations.AckTimeoutIsFatal := by
  unfold Obligations.AckTimeoutIsFatal
  intro s hn hq ht i hi
  have hack : s.ackExpired = true := ht
  have hsel : s.selectTx = .next .ackTmo := by rw [selectTx_quiet_ack hn hq, hack]; rfl
  have hx := exec_tx_selected hsel (by decide) 0 i hi
  exact exec_next_terminal hx (txAfter_keeps .ackTmo 0 s) rfl rfl rfl (poll_readClock_history s) rfl

end Sys2Proof.Machine
end

section
/-! The integrity module (43_integrity.md R181 to R190): the accumulator as its two bytes, the checksum as a
sum, and the CRC's step as a linear map that only the fitting bytes take to zero. -/

namespace Sys2Proof.Machine

/-! ## The accumulator as its two bytes -/

/-- R180: the accumulator is its high byte before its low byte. -/
theorem acc_eq_append (a : Acc) : a = a.extractLsb' 8 8 ++ a.extractLsb' 0 8 :=
  (BitVec.extractLsb'_append_extractLsb' (w := 8) (len := 8) (x := a)).symm

/-- R180: the accumulator as a number, by its bytes. -/
theorem toNat_append_byte (h l : Byte) : (h ++ l : Acc).toNat = 256 * h.toNat + l.toNat := by
  rw [BitVec.toNat_append, ← Nat.shiftLeft_add_eq_or_of_lt l.isLt, Nat.shiftLeft_eq, Nat.mul_comm]

theorem append_byte_inj {h l h' l' : Byte} : (h ++ l : Acc) = h' ++ l' ↔ h = h' ∧ l = l' := by
  refine ⟨fun e => ⟨?_, ?_⟩, by rintro ⟨rfl, rfl⟩; rfl⟩
  · simpa only [BitVec.extractLsb'_append_eq_left] using congrArg (·.extractLsb' 8 8) e
  · simpa only [BitVec.extractLsb'_append_eq_right] using congrArg (·.extractLsb' 0 8) e

theorem eq_append_byte_iff {a : Acc} {h l : Byte} : a = h ++ l ↔ a.extractLsb' 8 8 = h ∧ a.extractLsb' 0 8 = l := by
  conv_lhs => rw [acc_eq_append a]
  exact append_byte_inj

/-! ## The micro-operations (R181, R183) -/

/-- R181: what SUM8.CLEAR leaves is a multiple of 256 with the accumulator's upper byte. -/
theorem toNat_sum8ClearAcc (a : Acc) : (sum8ClearAcc a).toNat = 256 * (a.toNat / 256) := by
  rw [sum8ClearAcc, toNat_append_byte, BitVec.toNat_zero, BitVec.extractLsb'_toNat, Nat.shiftRight_eq_div_pow]
  have hacc : a.toNat < 65536 := a.isLt
  omega

/-- R181: SUM8.ABSORB adds to the low byte without a carry into the upper one. -/
theorem toNat_sum8AbsorbAcc (a : Acc) (b : Byte) :
    (sum8AbsorbAcc a b).toNat = 256 * (a.toNat / 256) + (a.toNat + b.toNat) % 256 := by
  rw [sum8AbsorbAcc, toNat_append_byte, BitVec.toNat_add, BitVec.extractLsb'_toNat, BitVec.extractLsb'_toNat,
    Nat.shiftRight_eq_div_pow]
  have hacc : a.toNat < 65536 := a.isLt
  omega

/-- Settles O40: each micro-operation is one write of the accumulator. -/
theorem microOperationsActOnAccumulator : Obligations.MicroOperationsActOnAccumulator := by
  unfold Obligations.MicroOperationsActOnAccumulator
  intro s b
  have hclear := toNat_sum8ClearAcc s.acc
  have habsorb := toNat_sum8AbsorbAcc s.acc b
  refine ⟨⟨sum8ClearAcc s.acc, rfl, ?_, ?_⟩, ⟨sum8AbsorbAcc s.acc b, rfl, ?_, ?_⟩, rfl, rfl,
    crcNibble s.par s.acc (b.extractLsb' 4 4), crc16AbsorbAcc s.par s.acc b, rfl, rfl, rfl⟩ <;> omega

/-! ## The checksum (R181, R190) -/

/-- R181: the low byte of the accumulator after any bytes is what stood there plus their sum. -/
theorem foldl_sum8AbsorbAcc_low (d : List Byte) (a : Acc) :
    (d.foldl sum8AbsorbAcc a).extractLsb' 0 8 = a.extractLsb' 0 8 + d.sum := by
  induction d generalizing a with
  | nil => simp
  | cons b d ih =>
    rw [List.foldl_cons, ih, sum8AbsorbAcc, BitVec.extractLsb'_append_eq_right, List.sum_cons, BitVec.add_assoc]

/-- R181: the checksum is the sum of the bytes as 8-bit words. -/
theorem sum8_eq_sum (d : List Byte) : sum8 d = d.sum := by
  rw [sum8, foldl_sum8AbsorbAcc_low, sum8ClearAcc, BitVec.extractLsb'_append_eq_right, BitVec.zero_add]

/-- An 8-bit sum is the sum of the numbers modulo 256. -/
theorem toNat_sum_byte (d : List Byte) : d.sum.toNat = (d.map BitVec.toNat).sum % 256 := by
  induction d with
  | nil => rfl
  | cons b d ih => rw [List.sum_cons, BitVec.toNat_add, ih, List.map_cons, List.sum_cons, Nat.add_mod_mod]

/-- Settles O42: the checksum is an 8-bit sum, and a sum does not depend on the order. -/
theorem checksumIsSumModulo256 : Obligations.ChecksumIsSumModulo256 := by
  unfold Obligations.ChecksumIsSumModulo256
  refine ⟨fun d => ?_, fun d e h => ?_⟩
  · rw [sum8_eq_sum, toNat_sum_byte]
  · rw [sum8_eq_sum, sum8_eq_sum, h.sum_eq]

/-- R190: with one byte another, the checksum is another. -/
theorem sum8_middle_inj {pre post : List Byte} {b b' : Byte} (h : sum8 (pre ++ b :: post) = sum8 (pre ++ b' :: post)) :
    b = b' := by
  simpa [sum8_eq_sum] using h

/-! ## The CRC's step (R183, R188)

The steps are linear, so three tables of 256 entries say all of them: what a high byte alone, a low byte alone
and the byte absorbed do. -/

/-- R183: a low byte moves up when the byte absorbed is zero. -/
theorem crc16AbsorbAcc_low (l : Byte) : crc16AbsorbAcc params (0#8 ++ l) 0#8 = l ++ 0#8 := by
  revert l; decide +kernel

/-- R183: a high byte cancels against the same byte absorbed. -/
theorem crc16AbsorbAcc_high (h : Byte) : crc16AbsorbAcc params (h ++ 0#8) h = 0#16 := by
  revert h; decide +kernel

/-- R188: the same of the bit-serial form. -/
theorem crcSerialByte_low (l : Byte) : crcSerialByte params (0#8 ++ l) 0#8 = l ++ 0#8 := by
  revert l; decide +kernel

theorem crcSerialByte_high (h : Byte) : crcSerialByte params (h ++ 0#8) h = 0#16 := by
  revert h; decide +kernel

/-- R188: both forms absorb a byte alike from zero. -/
theorem crc16AbsorbAcc_zero_eq_crcSerialByte (b : Byte) :
    crc16AbsorbAcc params 0#16 b = crcSerialByte params 0#16 b := by
  revert b; decide +kernel

/-- R182: the polynomial has a constant term, so a byte other than zero leaves a low byte other than zero. -/
theorem eq_zero_of_crc16AbsorbAcc_zero_low {b : Byte} :
    (crc16AbsorbAcc params 0#16 b).extractLsb' 0 8 = 0#8 → b = 0#8 := by
  revert b; decide +kernel

/-- A linear step that moves a low byte up and cancels a high byte is fixed by what it makes of a byte
absorbed from zero: it is the byte-at-a-time table step. -/
theorem bytewise_of_linear {f : Acc → Byte → Acc} (hxor : ∀ a b x y, f (a ^^^ b) (x ^^^ y) = f a x ^^^ f b y)
    (hlow : ∀ l : Byte, f (0#8 ++ l) 0#8 = l ++ 0#8) (hhigh : ∀ h : Byte, f (h ++ 0#8) h = 0#16) (h l b : Byte) :
    f (h ++ l) b = (l ++ 0#8) ^^^ f 0#16 (h ^^^ b) := by
  have hacc : (h ++ l : Acc) = (0#8 ++ l) ^^^ (h ++ 0#8) := by
    rw [BitVec.xor_append, BitVec.zero_xor, BitVec.xor_zero]
  have hbyte : b = 0#8 ^^^ (h ^^^ (h ^^^ b)) := by
    rw [BitVec.zero_xor, ← BitVec.xor_assoc, BitVec.xor_self, BitVec.zero_xor]
  calc f (h ++ l) b = f ((0#8 ++ l) ^^^ ((h ++ 0#8) ^^^ 0#16)) (0#8 ^^^ (h ^^^ (h ^^^ b))) := by
        rw [BitVec.xor_zero, ← hacc, ← hbyte]
    _ = (l ++ 0#8) ^^^ f 0#16 (h ^^^ b) := by rw [hxor, hxor, hlow, hhigh, BitVec.zero_xor]

/-- R183: CRC16.ABSORB as a byte-at-a-time table step. -/
theorem crc16AbsorbAcc_append (h l b : Byte) :
    crc16AbsorbAcc params (h ++ l) b = (l ++ 0#8) ^^^ crc16AbsorbAcc params 0#16 (h ^^^ b) :=
  bytewise_of_linear crc16AbsorbAcc_xor crc16AbsorbAcc_low crc16AbsorbAcc_high h l b

/-- R188: the bit-serial form of a byte as the same step. -/
theorem crcSerialByte_append (h l b : Byte) :
    crcSerialByte params (h ++ l) b = (l ++ 0#8) ^^^ crcSerialByte params 0#16 (h ^^^ b) :=
  bytewise_of_linear crcSerialByte_xor crcSerialByte_low crcSerialByte_high h l b

/-- R188: both forms absorb a byte alike. -/
theorem crc16AbsorbAcc_eq_crcSerialByte : crc16AbsorbAcc params = crcSerialByte params := by
  funext a b
  rw [acc_eq_append a, crc16AbsorbAcc_append, crcSerialByte_append, crc16AbsorbAcc_zero_eq_crcSerialByte]

/-- Settles O43: both forms fold the same step. -/
theorem nibbleCrcEqualsBitSerial : Obligations.NibbleCrcEqualsBitSerial := by
  unfold Obligations.NibbleCrcEqualsBitSerial
  intro d
  rw [crc16, crcSerial, crc16AbsorbAcc_eq_crcSerialByte]

/-! ## What absorbing takes to zero (R189) -/

/-- R189: absorbing a byte leaves an empty low byte exactly when the byte is the accumulator's high byte; then the
low byte has moved up. -/
theorem crc16AbsorbAcc_eq_high_iff {a : Acc} {b c : Byte} :
    crc16AbsorbAcc params a b = c ++ 0#8 ↔ a = b ++ c := by
  obtain ⟨h, l, rfl⟩ : ∃ h l : Byte, a = h ++ l := ⟨_, _, acc_eq_append a⟩
  have hzero : crc16AbsorbAcc params 0#16 0#8 = 0#16 := crc16AbsorbAcc_low 0#8
  rw [crc16AbsorbAcc_append, append_byte_inj]
  constructor
  · intro e
    have htable : crc16AbsorbAcc params 0#16 (h ^^^ b) = (l ^^^ c) ++ 0#8 := by
      rw [← BitVec.xor_right_inj (l ++ 0#8), e, BitVec.xor_append, ← BitVec.xor_assoc, BitVec.xor_self,
        BitVec.xor_self, BitVec.zero_xor]
    have hhb : h ^^^ b = 0#8 := eq_zero_of_crc16AbsorbAcc_zero_low (by rw [htable, BitVec.extractLsb'_append_eq_right])
    rw [hhb, hzero, BitVec.xor_zero] at e
    exact ⟨BitVec.xor_eq_zero_iff.mp hhb, (append_byte_inj.mp e).1⟩
  · rintro ⟨rfl, rfl⟩
    rw [BitVec.xor_self, hzero, BitVec.xor_zero]

/-- R189: absorbing leaves nothing exactly when the byte is all the accumulator holds. -/
theorem crc16AbsorbAcc_eq_zero_iff {a : Acc} {b : Byte} : crc16AbsorbAcc params a b = 0#16 ↔ a = b ++ 0#8 :=
  crc16AbsorbAcc_eq_high_iff (c := 0#8)

/-- R184: the CRC goes on from where it stands; those in use begin at zero and have no final exclusive-or. -/
theorem crc16_append (d e : List Byte) :
    crc16 params (d ++ e) = e.foldl (crc16AbsorbAcc params) (crc16 params d) := by
  have hfold (x : List Byte) : crc16 params x = x.foldl (crc16AbsorbAcc params) 0#16 := BitVec.xor_zero
  rw [hfold, hfold, List.foldl_append]

/-- R186: the integrity bytes determine the CRC. -/
theorem integrityBytes_crc_eq_iff {d : List Byte} {hi lo : Byte} :
    integrityBytes params .crc d = [hi, lo] ↔ crc16 params d = hi ++ lo := by
  simp [integrityBytes, eq_append_byte_iff]

/-- Settles O44: two bytes absorbed leave zero exactly when they are the accumulator's two. -/
theorem crcResidueIsZero : Obligations.CrcResidueIsZero := by
  unfold Obligations.CrcResidueIsZero
  intro d hi lo
  rw [eq_comm (a := [hi, lo]), integrityBytes_crc_eq_iff, crc16_append, List.foldl_cons, List.foldl_cons,
    List.foldl_nil, crc16AbsorbAcc_eq_zero_iff, crc16AbsorbAcc_eq_high_iff]

/-! ## One flipped bit (R190) -/

/-- R183: two steps agree exactly when the bytes cancel what the accumulators differ in. -/
theorem crc16AbsorbAcc_eq_iff {a a' : Acc} {b b' : Byte} :
    crc16AbsorbAcc params a b = crc16AbsorbAcc params a' b' ↔ a ^^^ a' = (b ^^^ b') ++ 0#8 := by
  rw [← BitVec.xor_eq_zero_iff, ← crc16AbsorbAcc_xor, crc16AbsorbAcc_eq_zero_iff]

/-- R183: from one accumulator, different bytes lead apart. -/
theorem crc16AbsorbAcc_byte_inj {a : Acc} {b b' : Byte} (h : crc16AbsorbAcc params a b = crc16AbsorbAcc params a b') :
    b = b' := by
  rw [crc16AbsorbAcc_eq_iff, BitVec.xor_self] at h
  exact BitVec.xor_eq_zero_iff.mp ((append_byte_inj (h' := 0#8) (l' := 0#8)).mp h.symm).1

/-- R183: the same bytes never bring different accumulators together. -/
theorem foldl_crc16AbsorbAcc_inj {d : List Byte} {a a' : Acc}
    (h : d.foldl (crc16AbsorbAcc params) a = d.foldl (crc16AbsorbAcc params) a') : a = a' := by
  induction d generalizing a a' with
  | nil => exact h
  | cons b d ih =>
    have hstep := crc16AbsorbAcc_eq_iff.mp (ih h)
    rw [BitVec.xor_self] at hstep
    exact BitVec.xor_eq_zero_iff.mp hstep

/-- R190: with one byte another, the CRC is another. -/
theorem crc16_middle_inj {pre post : List Byte} {b b' : Byte}
    (h : crc16 params (pre ++ b :: post) = crc16 params (pre ++ b' :: post)) : b = b' := by
  rw [crc16_append, crc16_append, List.foldl_cons, List.foldl_cons] at h
  exact crc16AbsorbAcc_byte_inj (foldl_crc16AbsorbAcc_inj h)

/-- R190: with one byte another, the integrity bytes are others. -/
theorem integrityBytes_middle_inj {m : Mode} {pre post : List Byte} {b b' : Byte}
    (h : integrityBytes params m (pre ++ b :: post) = integrityBytes params m (pre ++ b' :: post)) : b = b' := by
  cases m with
  | sum => exact sum8_middle_inj (List.singleton_inj.mp h)
  | crc => exact crc16_middle_inj ((integrityBytes_crc_eq_iff.mp h).trans (acc_eq_append _).symm)

/-- Flipping a bit of a byte changes it. -/
theorem flipBit_ne_self (b : Byte) {k : Nat} (hk : k < 8) : b ^^^ BitVec.twoPow 8 k ≠ b := by
  intro h
  have hbit := congrArg (·.getLsbD k) h
  simp [hk] at hbit

/-- Settles O45: a flipped bit makes another byte, and integrity bytes tell bytes apart. -/
theorem oneFlippedBitIsDetected : Obligations.OneFlippedBitIsDetected := by
  unfold Obligations.OneFlippedBitIsDetected
  intro pre post b k hk m h
  exact flipBit_ne_self b hk (integrityBytes_middle_inj h)

/-! ## The values the rule names (R182, R184) -/

/-- R184: zero bytes leave the CRC at zero. -/
theorem crc16_replicate_zero (n : Nat) : crc16 params (List.replicate n 0x00#8) = 0x0000#16 := by
  induction n with
  | zero => rfl
  | succ n ih =>
    rw [List.replicate_succ', crc16_append, ih]
    exact crc16AbsorbAcc_low 0#8

/-- R182: each table entry is the polynomial times its index. -/
theorem crcTable_eq_mul (k : Nat) (h : k < 16) : (params.crcTable[k]'h).toNat = k * params.crcPoly.toNat := by
  revert k; decide +kernel

/-- Settles O41: the fold is the definition's, and the named values are computed. -/
theorem crcIsFoldWithNamedValues : Obligations.CrcIsFoldWithNamedValues := by
  unfold Obligations.CrcIsFoldWithNamedValues
  exact ⟨⟨rfl, crcTable_eq_mul⟩, rfl, fun d b => crc16_append d [b], by decide +kernel, crc16_replicate_zero,
    by decide +kernel, by decide +kernel, by decide +kernel, by decide +kernel, by decide +kernel⟩

end Sys2Proof.Machine
end

section
/-! What a step's outcome tells (R222, R201): each arm's row of the transition relation, and which arms
report success; and elapsed time (R217). -/

namespace Sys2Proof.Machine

/-! ## Elapsed time and expiry (R217) -/

theorem tmoExpired_iff_le {p : Config.Params} (h : p.tmoStrict = false) (e t : Word32) :
    tmoExpired p e t = true ↔ t.toNat ≤ e.toNat := by simp [tmoExpired, h]

theorem tmoExpired_iff_lt {p : Config.Params} (h : p.tmoStrict = true) (e t : Word32) :
    tmoExpired p e t = true ↔ t.toNat < e.toNat := by simp [tmoExpired, h]

/-- R217: elapsed time is the difference of the two clock values modulo 2^32. -/
theorem toNat_elapsed (s : State) (now : Word32) :
    (s.elapsed now).toNat = (now.toNat + 2 ^ 32 - s.ses.tLast.toNat) % 2 ^ 32 := by
  have hlast := s.ses.tLast.isLt
  rw [State.elapsed, BitVec.toNat_sub]
  congr 1
  omega

/-- Settles O9: the subtraction wraps, and each reading of the parameter is one comparison. -/
theorem elapsedIsModular : Obligations.ElapsedIsModular := by
  unfold Obligations.ElapsedIsModular
  refine ⟨toNat_elapsed, fun p e t hp => ⟨tmoExpired_iff_le hp e t, ?_⟩,
    fun p e t hp => tmoExpired_iff_lt hp e t, rfl⟩
  rw [tmoExpired_iff_le hp]
  exact Nat.zero_le _

/-! ## The row of the transition relation each arm is (R222) -/

/-- Node after, bytes emitted and result of each receive arm; the node before is `RxArm.home`. -/
def rxRow (a : RxArm) (s : State) : Node × List Byte × Result :=
  match a with
  | .idle => (.idle, [], .errIdle)
  | .start => (.rxAwaitHeader, [solicitation s.ses.mode], .cont)
  | .hdrSoh | .hdrStx => (.rxAwaitBody, [], .cont)
  | .hdrEot => (.idle, [ACK], if s.ses.xferred = s.cfg.total then .success else .errEarlyEot)
  | .hdrCan => (.idle, [], .errPeerCancel)
  | .hdrWait => (.rxAwaitHeader, [], .cont)
  | .hdrTmoRetry => (.rxStartWait, [], .cont)
  | .hdrTmoStart => (.idle, [], .errStartTimeout)
  | .hdrTmoStall => (.idle, [], .errHeaderTimeout)
  | .bodyWait => (.rxAwaitBody, [], .cont)
  | .bodyTmo | .bodyBadsum => (.rxAwaitHeader, [NAK], .cont)
  | .bodyMismatch => (.idle, [CAN], .errMismatch)
  | .bodyOverrun => (.idle, [CAN], .success)
  | .bodyStorefail => (.idle, [CAN], .errStore)
  | .bodyAccept => (.rxAwaitHeader, [ACK], .cont)

/-- Node after, bytes emitted and result of each transmit arm; the node before is `TxArm.home`. -/
def txRow (a : TxArm) (marker : Byte) (s : State) : Node × List Byte × Result :=
  match a with
  | .idle => (.idle, [], .errIdle)
  | .startC | .startNak => (.txSendPacket, [], .cont)
  | .startCan => (.idle, [], .errPeerCancel)
  | .startWait | .startTmoRetry => (.txAwaitStart, [], .cont)
  | .startTmoFatal => (.idle, [], .errStartTimeout)
  | .sendDone => (.idle, [EOT], .success)
  | .sendStorefail => (.idle, [CAN], .errStore)
  | .sendFrame => (.txAwaitAck, s.outFrame marker, .cont)
  | .ackLast => (.idle, [EOT], .success)
  | .ackMore | .ackNak => (.txSendPacket, [], .cont)
  | .ackCan => (.idle, [], .errPeerCancel)
  | .ackWait => (.txAwaitAck, [], .cont)
  | .ackTmo => (.idle, [], .errAckTimeout)

/-- `t` is the state after `s` that a row names: its node, what it emitted and its result. -/
structure State.FollowedBy (s : State) (row : Node × List Byte × Result) (t : State) : Prop where
  node : t.ses.node = row.1
  outbound : t.outbound = s.outbound ++ row.2.1
  res : t.res = some row.2.2

/-- The selected receive arm leads to the state its row names; only the idle and the
waiting arms leave the node as it was. -/
theorem rxAfter_followedBy {s : State} {a : RxArm} (h : s.selectRx = .next a) :
    s.FollowedBy (rxRow a s) (rxAfter a s) where
  node := by
    cases a with
    | idle | hdrWait => exact selectRx_home h
    | bodyWait => exact (accumulate_node s).trans (selectRx_home h)
    | _ => rfl
  outbound := by cases a <;> simp [rxAfter, rxRow]
  res := by cases a <;> rfl

/-- The selected transmit arm leads to the state its row names. -/
theorem txAfter_followedBy {s : State} {a : TxArm} (h : s.selectTx = .next a) (marker : Byte) :
    s.FollowedBy (txRow a marker s) (txAfter a marker s) where
  node := by
    cases a with
    | idle | startWait | startTmoRetry | ackWait => exact selectTx_home h
    | _ => rfl
  outbound := by cases a <;> simp [txAfter, txRow]
  res := by cases a <;> rfl

/-- Settles O52: the step's arm is one of its node's, and its row is listed. -/
theorem receiveTransitionRelation : Obligations.ReceiveTransitionRelation := by
  unfold Obligations.ReceiveTransitionRelation
  intro s t h
  obtain ⟨a, hs, h⟩ := execRxStep_next h
  obtain ⟨-, rfl, -⟩ := rxMeaning_next h
  have hrow := rxAfter_followedBy hs
  refine ⟨_, _, hrow.outbound, hrow.res, ?_⟩
  rw [selectRx_home hs, hrow.node]
  cases a with
  | start => cases hm : s.ses.mode <;> simp [RxArm.home, rxRow, hm, solicitation, CRCREQ, NAK]
  | hdrEot => by_cases hx : s.ses.xferred = s.cfg.total <;> simp [RxArm.home, rxRow, hx, ACK]
  | _ => simp [RxArm.home, rxRow, ACK, NAK, CAN]

/-- Settles O53: the step's arm is one of its node's, and its row is listed, or it sends a frame. -/
theorem transmitTransitionRelation : Obligations.TransmitTransitionRelation := by
  unfold Obligations.TransmitTransitionRelation
  intro s t h
  obtain ⟨a, hs, h⟩ := execTxStep_next h
  obtain ⟨-, marker, rfl, -⟩ := txMeaning_next h
  have hrow := txAfter_followedBy hs marker
  refine ⟨_, _, hrow.outbound, hrow.res, ?_⟩
  rw [selectTx_home hs, hrow.node]
  cases a with
  | sendFrame => exact .inr ⟨rfl, rfl, rfl, length_outFrame s marker⟩
  | _ => exact .inl (by simp [TxArm.home, txRow, EOT, CAN])

/-! ## Success (R201) -/

/-- The receive arms that report success: the peer's `EOT` with the total reached, and a packet
too many. -/
theorem rxRow_success {s : State} {a : RxArm} (h : (rxRow a s).2.2 = .success) :
    a = .hdrEot ∧ s.ses.xferred = s.cfg.total ∨ a = .bodyOverrun := by
  cases a with
  | hdrEot => exact .inl ⟨rfl, by simpa [rxRow] using h⟩
  | bodyOverrun => exact .inr rfl
  | _ => simp [rxRow] at h

/-- The transmit arms that report success. -/
theorem txRow_success {s : State} {a : TxArm} {marker : Byte} (h : (txRow a marker s).2.2 = .success) :
    a = .sendDone ∨ a = .ackLast := by
  cases a with
  | sendDone => exact .inl rfl
  | ackLast => exact .inr rfl
  | _ => simp [txRow] at h

/-- R138: RX.BODY.OVERRUN is selected only where nothing of the total remains. -/
theorem decodeBody_overrun {g : Signals} (h : decodeBody g = .bodyOverrun) : g.remaining = false := by
  unfold decodeBody at h
  split_ifs at h with _ _ _ _ hnone
  simpa using hnone

/-- R166: TX.SEND.DONE is selected only where nothing is left to send. -/
theorem decodeSend_done {g : Signals} (h : decodeSend g = .sendDone) : g.remaining = false := by
  unfold decodeSend at h
  split_ifs at h with hnone
  simpa using hnone

/-- R167: TX.ACK.ACK_LAST is selected only for the packet that completes the total. -/
theorem decodeAck_last {g : Signals} (h : decodeAck g = .ackLast) : g.lastPacket = true := by
  unfold decodeAck at h
  split_ifs at h with _ hlast
  exact hlast

/-- R134: nothing of the total remains where RX.BODY.OVERRUN is selected. -/
theorem remaining_eq_zero_of_overrun {s : State} (h : s.selectRx = .next .bodyOverrun) : s.remaining = 0 := by
  have hn : s.ses.node = .rxAwaitBody := selectRx_home h
  have hsel := selectRx_next h
  simp only [hn, reduceCtorEq, false_and, false_or] at hsel
  obtain ⟨-, -, -, ha⟩ := hsel
  simpa [State.bodySignals] using decodeBody_overrun ha.symm

/-- R156: nothing of the total remains where TX.SEND.DONE is selected: a packet is never of no bytes. -/
theorem remaining_eq_zero_of_sendDone {s : State} (h : s.selectTx = .next .sendDone) : s.remaining = 0 := by
  have hn : s.ses.node = .txSendPacket := selectTx_home h
  have hsel := selectTx_next h
  simp only [hn, reduceCtorEq, false_and, false_or, or_false] at hsel
  obtain ⟨-, hhint, ha⟩ := hsel
  have hnone : s.chunk s.cfg.pktHint = 0 := by simpa [State.sendSignals] using decodeSend_done ha.symm
  rw [hintLegal_iff] at hhint
  unfold State.chunk at hnone
  omega

/-- R159: at most one packet remains where TX.ACK.ACK_LAST is selected. -/
theorem remaining_le_of_ackLast {s : State} (h : s.selectTx = .next .ackLast) : s.remaining ≤ s.cfg.pktHint := by
  have hn : s.ses.node = .txAwaitAck := selectTx_home h
  have hsel := selectTx_next h
  simp only [hn, reduceCtorEq, false_and, false_or] at hsel
  obtain ⟨-, -, ha⟩ := hsel
  have hlast : s.lastPacket = true := by simpa [State.ackSignals] using decodeAck_last ha.symm
  have htotal := of_decide_eq_true hlast
  have hchunk : s.chunk s.cfg.pktHint ≤ s.cfg.pktHint := min_le_left _ _
  unfold State.remaining
  omega

/-- R201: a receive arm reports success only once the running offset is the total. -/
theorem xferred_eq_total_of_success {s : State} {a : RxArm} (hi : Inv s) (h : s.selectRx = .next a)
    (hr : (rxRow a s).2.2 = .success) : s.ses.xferred = s.cfg.total := by
  obtain ⟨-, hx⟩ | rfl := rxRow_success hr
  · exact hx
  · have hn : s.ses.node = .rxAwaitBody := selectRx_home h
    have hle := hi.xferred_le (by simp [hn])
    have hge : s.cfg.total.toNat ≤ s.ses.xferred.toNat := Nat.le_of_sub_eq_zero (remaining_eq_zero_of_overrun h)
    exact BitVec.eq_of_toNat_eq (hle.antisymm hge)

/-- R156: a session that has nothing to send in TxSendPacket is one of no bytes. -/
theorem total_eq_zero_of_sendDone {s : State} (hi : Inv s) (h : s.selectTx = .next .sendDone) : s.cfg.total = 0#32 := by
  have hge : s.cfg.total.toNat ≤ s.ses.xferred.toNat := Nat.le_of_sub_eq_zero (remaining_eq_zero_of_sendDone h)
  obtain hlt | ⟨-, ht⟩ := hi.send_left (selectTx_home h)
  · exact absurd hlt hge.not_gt
  · exact ht

/-- Settles O58: of the arms that report success, each is selected only where nothing, or no more than the
packet just acknowledged, remains. -/
theorem successMeansTotalReached : Obligations.SuccessMeansTotalReached := by
  unfold Obligations.SuccessMeansTotalReached
  intro s t hi
  constructor
  · intro h hres
    obtain ⟨a, hs, h⟩ := execRxStep_next h
    obtain ⟨-, rfl, -⟩ := rxMeaning_next h
    exact xferred_eq_total_of_success hi hs (Option.some_inj.mp ((rxAfter_followedBy hs).res.symm.trans hres))
  · intro h hres
    obtain ⟨a, hs, h⟩ := execTxStep_next h
    obtain ⟨-, marker, rfl, -⟩ := txMeaning_next h
    obtain rfl | rfl := txRow_success (Option.some_inj.mp ((txAfter_followedBy hs marker).res.symm.trans hres))
    · exact .inr ⟨selectTx_home hs, total_eq_zero_of_sendDone hi hs⟩
    · exact .inl ⟨selectTx_home hs, remaining_le_of_ackLast hs⟩

end Sys2Proof.Machine
end

section
/-! Reset between calls (R230), and a frame that comes a second time (R239). -/

namespace Sys2Proof.Machine

/-! ## Reset (R230, R34) -/

/-- Settles O2: a reset writes the configuration, the session, the accumulator and the free-value counter,
and the session it writes is in `Idle`. -/
theorem resetGoesIdle : Obligations.ResetGoesIdle := by
  unfold Obligations.ResetGoesIdle
  refine ⟨fun s rest h => ?_, reset_node⟩
  rw [step_of_reset h, State.resetEngine]
  exact ⟨_, _, _, _, rfl, freeSession_node s.free⟩

/-! ## A duplicate packet (R85, R239) -/

/-- R85: no sequence number follows itself, unless 255 is made to. -/
theorem nextSeq_ne_self {p : Config.Params} (hw : p.seqWrapTo ≠ 0xFF#8) (q : Byte) : nextSeq p q ≠ q := by
  unfold nextSeq
  split
  case isTrue h => rwa [h]
  case isFalse => bv_omega

/-- Settles O60: the last accepted sequence number is not its own successor, so the frame is a mismatch
(R132). -/
theorem duplicatePacketIsMismatch : Obligations.DuplicatePacketIsMismatch := by
  unfold Obligations.DuplicatePacketIsMismatch
  intro s hwrap h hfull hdup
  have hw : s.par.seqWrapTo ≠ 0xFF#8 := by
    obtain hw | hw := hwrap <;> rw [hw] <;> decide
  have hseq : s.accumulate.ses.buf[1] ≠ nextSeq s.par s.ses.seqLast := by
    rw [hdup]
    exact (nextSeq_ne_self hw _).symm
  obtain ⟨ses, acc, free, hexec, hidle⟩ := mismatchIsFatal s h hfull (.inl hseq) .rxStep (by simp)
  refine ⟨_, hexec, rfl, hidle, ?_, accumulate_store s⟩
  calc (s.accumulate.emit [0x18#8]).outbound
      = s.accumulate.outbound ++ [0x18#8] := State.emit_outbound ..
    _ = s.outbound ++ [0x18#8] := by rw [State.accumulate_outbound]

end Sys2Proof.Machine
end
